-- ==== Sys2Proof/Word.lean ====
section
/-!
DEFINITION. The words of the TQ-4808 and the numbers of its parts: bytes, device times, host-memory addresses, the
numbered parts (lines, tracks, report queues, trip units, vectors) and the two record sizes it reads from host memory.
-/

namespace Sys2Proof

/-- One byte of host memory. -/
abbrev Byte := BitVec 8

/-- A device time: a 64-bit count of 10 ns ticks (R180). -/
abbrev Time := BitVec 64

/-- A host-memory address (R191: addresses are 64-bit fields). -/
abbrev Addr := BitVec 64

/-- A signal line L0..L47. -/
abbrev LineId := Fin 48

/-- A track T0..T7. -/
abbrev TrackId := Fin 8

/-- A report queue RQ0..RQ7. -/
abbrev QueueId := Fin 8

/-- A trip unit TRIP0 or TRIP1. -/
abbrev UnitId := Fin 2

/-- An interrupt vector 0..7. -/
abbrev VectorId := Fin 8

/-- A step record as it stands in a sequence queue: 32 bytes (R192). -/
abbrev StepRecord := Vector Byte 32

/-- An admin command as it stands in the admin queue: 64 bytes (R194). -/
abbrev CommandRecord := Vector Byte 64

end Sys2Proof
end

