-- ==== Sys2Proof/Syntax.lean ====
section
/-!
DEFINITION. The commands of the block, one constructor of Instr for each row of spec/opcode_table.json, with the data the
row brings from outside. A row is one whole, indivisible event at the block that owns the state concerned (00_scope.md,
Events and time). The 17 admin commands and UNKNOWN_OPCODE are rows of their own: each is the event in which the admin
engine takes the command, the error-free completion of its command read (R168), with the record's fields as operands.
ADMIN_READ_COMPLETION is the same event with the 64 bytes of the record as they were read.
-/

namespace Sys2Proof

/-- A level of a pin or a line (R191: 0 LOW, 1 HIGH). -/
inductive Level where
  | low
  | high
deriving DecidableEq, Repr

/-- One of the nine requesters of the fetch unit (section 1.4). -/
inductive Requester where
  | track (t : TrackId)
  | admin
deriving DecidableEq, Repr

/-- The width of a register access; only aligned word accesses reach a register (R179). -/
inductive AccessWidth where
  | byte
  | half
  | word
deriving DecidableEq, Repr

/-- The parameters of SET-LINE (R87, R194), as the bytes of the record hold them. -/
structure SetLineParams where
  line : Byte
  mode : Byte
  staticLevel : Byte
  safeMode : Byte
  window : BitVec 16
  captureMode : Byte
  captureRq : Byte
  interval : Bool
deriving DecidableEq, Repr

/-- The parameters of BIND-TRACK (R60, R194); `lanes` holds bytes 36 to 51, of which the first `laneCount` are read. -/
structure BindParams where
  track : Byte
  laneCount : Byte
  latePolicy : Byte
  rq : Byte
  tolerance : BitVec 16
  holdLimit : BitVec 16
  pattern : BitVec 16
  sqSize : BitVec 16
  sqBase : Addr
  retireAddr : Addr
  lanes : Vector Byte 16
deriving DecidableEq, Repr

/-- The parameters of CREATE-RQ (R149, R194). -/
structure CreateRqParams where
  queue : Byte
  vector : Byte
  threshold : Byte
  enable : Byte
  delay : BitVec 16
  size : BitVec 16
  base : Addr
deriving DecidableEq, Repr

/-- The parameters of SET-RQ-INTERRUPT (R159, R194). -/
structure RqInterruptParams where
  queue : Byte
  enable : Byte
  vector : Byte
  threshold : Byte
  delay : BitVec 16
deriving DecidableEq, Repr

/-- The parameters of SET-TRIP (R118, R194). -/
structure SetTripParams where
  unit : Byte
  source : Byte
  condition : Byte
  enable : Byte
  mask : Byte
deriving DecidableEq, Repr

/-- An admin command as the engine reads it: the 17 of the catalogue (section 9.6) and an opcode that names none. -/
inductive Command where
  | identify (buffer : Addr)
  | setLine (p : SetLineParams)
  | setStatic (mask levels : BitVec 48)
  | snapshot (buffer : Addr) (clearGlitch : Bool)
  | bindTrack (p : BindParams)
  | unbindTrack (track : Byte)
  | startTracks (mask mode : Byte) (start : Time)
  | stopTrack (track timing lines : Byte)
  | pauseTrack (track : Byte)
  | resumeTrack (track action choice : Byte)
  | trackStatus (track : Byte) (buffer : Addr)
  | createRq (p : CreateRqParams)
  | deleteRq (queue : Byte)
  | setRqInterrupt (p : RqInterruptParams)
  | setTrip (p : SetTripParams)
  | clearTrip (unit : Byte)
  | fireTrip (unit : Byte)
  | unknown (opcode : Byte)
deriving DecidableEq, Repr

/-- The commands of the block: one constructor per row of spec/opcode_table.json. In the rows of the admin commands `id`
is the command id (R170). -/
inductive Instr where
  /-- POWER_ON (R181). -/
  | powerOn
  /-- PORT_RESET: a reset of the link (R189). -/
  | portReset
  /-- CTRL_RESET: a CTRL write with RESET 1, whatever its RUN bit (R189). -/
  | ctrlReset (run : Bool)
  /-- CTRL_RUN: a CTRL write with RESET 0 and this RUN bit (R182, R184). -/
  | ctrlRun (run : Bool)
  /-- POST: a POST write with its queue selector and post index (R185). -/
  | post (selector : BitVec 4) (index : BitVec 16)
  /-- RLSE: an RLSE write with its queue number and release index (R186). -/
  | rlse (queue : BitVec 4) (index : BitVec 16)
  /-- TIML_READ (R180). -/
  | timlRead
  /-- REGISTER_WRITE: a write to any other offset, of any width (R179). -/
  | registerWrite (offset : BitVec 32) (width : AccessWidth) (value : BitVec 32)
  /-- READ_ISSUE: the host port is ready and the arbiter makes one grant (R19). -/
  | readIssue
  /-- STEP_READ_COMPLETION: the read of this track completes; the first n of the eight records are those read (R14). -/
  | stepReadCompletion (t : TrackId) (data : Vector StepRecord 8)
  /-- STEP_READ_ERROR (R16). -/
  | stepReadError (t : TrackId)
  /-- READ_TIMEOUT: 1 000 000 ticks have passed since the issue of this requester's read (R17). -/
  | readTimeout (who : Requester)
  /-- ADMIN_READ_COMPLETION: the command read completes with these 64 bytes and the engine takes the command (R168). -/
  | adminReadCompletion (record : CommandRecord)
  /-- UNKNOWN_OPCODE: the engine takes a command whose opcode names none (R170). -/
  | unknownOpcode (id : BitVec 16) (opcode : Byte)
  /-- ADMIN_READ_ERROR (R169). -/
  | adminReadError
  /-- IDENTIFY (R177). -/
  | identify (id : BitVec 16) (buffer : Addr)
  /-- SET_LINE (R87). -/
  | setLine (id : BitVec 16) (p : SetLineParams)
  /-- SET_STATIC (R91). -/
  | setStatic (id : BitVec 16) (mask levels : BitVec 48)
  /-- SNAPSHOT (R92). -/
  | snapshot (id : BitVec 16) (buffer : Addr) (clearGlitch : Bool)
  /-- BIND_TRACK (R60). -/
  | bindTrack (id : BitVec 16) (p : BindParams)
  /-- UNBIND_TRACK (R63). -/
  | unbindTrack (id : BitVec 16) (track : Byte)
  /-- START_TRACKS (R64). -/
  | startTracks (id : BitVec 16) (mask mode : Byte) (start : Time)
  /-- STOP_TRACK (R68). -/
  | stopTrack (id : BitVec 16) (track timing lines : Byte)
  /-- PAUSE_TRACK (R71). -/
  | pauseTrack (id : BitVec 16) (track : Byte)
  /-- RESUME_TRACK (R72). -/
  | resumeTrack (id : BitVec 16) (track action choice : Byte)
  /-- TRACK_STATUS (R79). -/
  | trackStatus (id : BitVec 16) (track : Byte) (buffer : Addr)
  /-- CREATE_RQ (R149). -/
  | createRq (id : BitVec 16) (p : CreateRqParams)
  /-- DELETE_RQ (R150). -/
  | deleteRq (id : BitVec 16) (queue : Byte)
  /-- SET_RQ_INTERRUPT (R159). -/
  | setRqInterrupt (id : BitVec 16) (p : RqInterruptParams)
  /-- SET_TRIP (R118). -/
  | setTrip (id : BitVec 16) (p : SetTripParams)
  /-- CLEAR_TRIP (R125). -/
  | clearTrip (id : BitVec 16) (unit : Byte)
  /-- FIRE_TRIP (R121). -/
  | fireTrip (id : BitVec 16) (unit : Byte)
  /-- BUFFER_WRITE_COMPLETION, with error or without (R172). -/
  | bufferWriteCompletion (error : Bool)
  /-- START_TIME_REACHED (R66). -/
  | startTimeReached (t : TrackId)
  /-- DUE_TIMER_EXPIRY (R34). -/
  | dueTimerExpiry (t : TrackId)
  /-- TIMEOUT_TIMER_EXPIRY (R43). -/
  | timeoutTimerExpiry (t : TrackId)
  /-- HOLD_TIMER_EXPIRY (R50). -/
  | holdTimerExpiry (t : TrackId)
  /-- RETIRE_WORD_WRITE_DONE (R24). -/
  | retireWordWriteDone (t : TrackId)
  /-- RETIRE_WORD_WRITE_ERROR (R24). -/
  | retireWordWriteError (t : TrackId)
  /-- RAW_CHANGE: a sample shows the pin of this line at this level (R99, R101). -/
  | rawChange (line : LineId) (level : Level)
  /-- WINDOW_EXPIRY (R102). -/
  | windowExpiry (line : LineId)
  /-- ENTRY_WRITE_COMPLETION: the oldest entry write in flight of this queue completes without error (R145). -/
  | entryWriteCompletion (q : QueueId)
  /-- ENTRY_WRITE_ERROR: the oldest entry write in flight of this queue completes with error (R147). -/
  | entryWriteError (q : QueueId)
  /-- DELAY_TIMER_EXPIRY (R158). -/
  | delayTimerExpiry (q : QueueId)
  /-- VECTOR_UNMASK (R162). -/
  | vectorUnmask (v : VectorId)
  /-- VECTOR_MASK (R162). -/
  | vectorMask (v : VectorId)
deriving DecidableEq, Repr

/-- The row of the table in which the engine takes this command. -/
def Instr.ofCommand (id : BitVec 16) : Command → Instr
  | .identify buffer => .identify id buffer
  | .setLine p => .setLine id p
  | .setStatic mask levels => .setStatic id mask levels
  | .snapshot buffer clearGlitch => .snapshot id buffer clearGlitch
  | .bindTrack p => .bindTrack id p
  | .unbindTrack track => .unbindTrack id track
  | .startTracks mask mode start => .startTracks id mask mode start
  | .stopTrack track timing lines => .stopTrack id track timing lines
  | .pauseTrack track => .pauseTrack id track
  | .resumeTrack track action choice => .resumeTrack id track action choice
  | .trackStatus track buffer => .trackStatus id track buffer
  | .createRq p => .createRq id p
  | .deleteRq queue => .deleteRq id queue
  | .setRqInterrupt p => .setRqInterrupt id p
  | .setTrip p => .setTrip id p
  | .clearTrip unit => .clearTrip id unit
  | .fireTrip unit => .fireTrip id unit
  | .unknown opcode => .unknownOpcode id opcode

end Sys2Proof
end

