-- ==== Sys2Proof/WellFormed.lean ====
section
/-!
DEFINITION. Which commands are well formed. The operand types rule out most ill-formed commands; two rows need a check:
UNKNOWN_OPCODE carries an opcode that names no command, and REGISTER_WRITE is not a whole write of a register that has a row of
its own.
-/

namespace Sys2Proof

/-- The opcode names one of the 17 commands of the catalogue (R194: 0x01 to 0x11). -/
def opcodeNamed (opcode : Byte) : Bool := 1 ≤ opcode.toNat && opcode.toNat ≤ 0x11

/-- The offset of a register whose writes are rows of their own: CTRL, POST, RLSE (R179). -/
def hasOwnRow (offset : BitVec 32) : Bool := offset == 0x04 || offset == 0x24 || offset == 0x28

/-- The command is well formed. -/
def Instr.wellFormed : Instr → Bool
  | .unknownOpcode _ opcode => !opcodeNamed opcode
  | .registerWrite offset width _ => !(width == .word && hasOwnRow offset)
  | .powerOn | .portReset | .ctrlReset _ | .ctrlRun _ | .post _ _ | .rlse _ _ | .timlRead | .readIssue
  | .stepReadCompletion _ _ | .stepReadError _ | .readTimeout _ | .adminReadCompletion _ | .adminReadError
  | .identify _ _ | .setLine _ _ | .setStatic _ _ _ | .snapshot _ _ _ | .bindTrack _ _ | .unbindTrack _ _
  | .startTracks _ _ _ _ | .stopTrack _ _ _ _ | .pauseTrack _ _ | .resumeTrack _ _ _ _ | .trackStatus _ _ _
  | .createRq _ _ | .deleteRq _ _ | .setRqInterrupt _ _ | .setTrip _ _ | .clearTrip _ _ | .fireTrip _ _
  | .bufferWriteCompletion _ | .startTimeReached _ | .dueTimerExpiry _ | .timeoutTimerExpiry _ | .holdTimerExpiry _
  | .retireWordWriteDone _ | .retireWordWriteError _ | .rawChange _ _ | .windowExpiry _ | .entryWriteCompletion _
  | .entryWriteError _ | .delayTimerExpiry _ | .vectorUnmask _ | .vectorMask _ => true

end Sys2Proof
end

