-- ==== Sys2Proof/Decode.lean ====
section
/-!
DEFINITION. Reading and writing the bytes of host memory: the little-endian fields (R191), the fields of an admin command
(R194) with the record that spells a command, and the host's decodeTableWord. No row of spec/opcode_table.json gives bits, so
decodeTableWord answers none for every word.
-/

namespace Sys2Proof

/-- A 16-bit little-endian field (R191). -/
def le16 (b0 b1 : Byte) : BitVec 16 := b1 ++ b0

/-- A 32-bit little-endian field (R191). -/
def le32 (b0 b1 b2 b3 : Byte) : BitVec 32 := b3 ++ b2 ++ b1 ++ b0

/-- A 48-bit little-endian field, bit i for line i (R191, R194). -/
def le48 (b0 b1 b2 b3 b4 b5 : Byte) : BitVec 48 := b5 ++ b4 ++ b3 ++ b2 ++ b1 ++ b0

/-- A 64-bit little-endian field (R191). -/
def le64 (b0 b1 b2 b3 b4 b5 b6 b7 : Byte) : BitVec 64 := b7 ++ b6 ++ b5 ++ b4 ++ b3 ++ b2 ++ b1 ++ b0

/-- The bytes of a value, least significant first (R191); `n` bytes are written. -/
def leBytes (n : Nat) (w : Nat) (x : BitVec w) : List Byte := (List.range n).map fun i => x.extractLsb' (8 * i) 8

/-- The two bytes of a 16-bit field. -/
def bytes16 (x : BitVec 16) : List Byte := leBytes 2 16 x

/-- The four bytes of a 32-bit field. -/
def bytes32 (x : BitVec 32) : List Byte := leBytes 4 32 x

/-- The six bytes of a 48-bit field. -/
def bytes48 (x : BitVec 48) : List Byte := leBytes 6 48 x

/-- The eight bytes of a 64-bit field. -/
def bytes64 (x : BitVec 64) : List Byte := leBytes 8 64 x

/-- `n` bytes that no field occupies, written as 0 (R191). -/
def zeroBytes (n : Nat) : List Byte := List.replicate n 0

/-- A flag as a byte whose bit 0 holds it. -/
def flagByte (b : Bool) : Byte := if b then 1 else 0

/-- The eight-byte little-endian field of a command record from byte `i` on (R191, R194). -/
def field64 (r : CommandRecord) (i : Nat) (h : i + 7 < 64 := by omega) : BitVec 64 :=
  le64 r[i] r[i + 1] r[i + 2] r[i + 3] r[i + 4] r[i + 5] r[i + 6] r[i + 7]

/-- The command of a record: its opcode in byte 0 and its parameters where R194 places them. -/
def decodeParams (r : CommandRecord) : Command :=
  match r[0].toNat with
  | 0x01 => .identify (field64 r 8)
  | 0x02 => .setLine { line := r[8], mode := r[9], staticLevel := r[10], safeMode := r[11], window := le16 r[12] r[13],
                       captureMode := r[14], captureRq := r[15], interval := r[16].getLsbD 0 }
  | 0x03 => .setStatic (le48 r[8] r[9] r[10] r[11] r[12] r[13]) (le48 r[16] r[17] r[18] r[19] r[20] r[21])
  | 0x04 => .snapshot (field64 r 8) (r[16].getLsbD 0)
  | 0x05 => .bindTrack { track := r[8], laneCount := r[9], latePolicy := r[10], rq := r[11], tolerance := le16 r[12] r[13],
                         holdLimit := le16 r[14] r[15], pattern := le16 r[16] r[17], sqSize := le16 r[18] r[19],
                         sqBase := field64 r 20, retireAddr := field64 r 28,
                         lanes := Vector.ofFn fun i : Fin 16 => r[36 + i.val] }
  | 0x06 => .unbindTrack r[8]
  | 0x07 => .startTracks r[8] r[9] (field64 r 16)
  | 0x08 => .stopTrack r[8] r[9] r[10]
  | 0x09 => .pauseTrack r[8]
  | 0x0A => .resumeTrack r[8] r[9] r[10]
  | 0x0B => .trackStatus r[8] (field64 r 16)
  | 0x0C => .createRq { queue := r[8], vector := r[9], threshold := r[10], enable := r[11], delay := le16 r[12] r[13],
                        size := le16 r[14] r[15], base := field64 r 16 }
  | 0x0D => .deleteRq r[8]
  | 0x0E => .setRqInterrupt { queue := r[8], enable := r[9], vector := r[10], threshold := r[11], delay := le16 r[12] r[13] }
  | 0x0F => .setTrip { unit := r[8], source := r[9], condition := r[10], enable := r[11], mask := r[12] }
  | 0x10 => .clearTrip r[8]
  | 0x11 => .fireTrip r[8]
  | _ => .unknown r[0]

/-- The command id in bytes 2 and 3, and the command (R194). -/
def decodeCommand (r : CommandRecord) : BitVec 16 × Command := (le16 r[2] r[3], decodeParams r)

/-- The opcode of a command (R194: catalogue order), or the value read when it names none. -/
def Command.opcode : Command → Byte
  | .identify _ => 0x01
  | .setLine _ => 0x02
  | .setStatic _ _ => 0x03
  | .snapshot _ _ => 0x04
  | .bindTrack _ => 0x05
  | .unbindTrack _ => 0x06
  | .startTracks _ _ _ => 0x07
  | .stopTrack _ _ _ => 0x08
  | .pauseTrack _ => 0x09
  | .resumeTrack _ _ _ => 0x0A
  | .trackStatus _ _ => 0x0B
  | .createRq _ => 0x0C
  | .deleteRq _ => 0x0D
  | .setRqInterrupt _ => 0x0E
  | .setTrip _ => 0x0F
  | .clearTrip _ => 0x10
  | .fireTrip _ => 0x11
  | .unknown opcode => opcode

/-- The parameter bytes of a command, from byte 8 on (R194). -/
def Command.paramBytes : Command → List Byte
  | .identify buffer => bytes64 buffer
  | .setLine p => [p.line, p.mode, p.staticLevel, p.safeMode] ++ bytes16 p.window ++ [p.captureMode, p.captureRq, flagByte p.interval]
  | .setStatic mask levels => bytes48 mask ++ zeroBytes 2 ++ bytes48 levels
  | .snapshot buffer clearGlitch => bytes64 buffer ++ [flagByte clearGlitch]
  | .bindTrack p => [p.track, p.laneCount, p.latePolicy, p.rq] ++ bytes16 p.tolerance ++ bytes16 p.holdLimit ++ bytes16 p.pattern
      ++ bytes16 p.sqSize ++ bytes64 p.sqBase ++ bytes64 p.retireAddr ++ p.lanes.toList
  | .unbindTrack track => [track]
  | .startTracks mask mode start => [mask, mode] ++ zeroBytes 6 ++ bytes64 start
  | .stopTrack track timing lines => [track, timing, lines]
  | .pauseTrack track => [track]
  | .resumeTrack track action choice => [track, action, choice]
  | .trackStatus track buffer => [track] ++ zeroBytes 7 ++ bytes64 buffer
  | .createRq p => [p.queue, p.vector, p.threshold, p.enable] ++ bytes16 p.delay ++ bytes16 p.size ++ bytes64 p.base
  | .deleteRq queue => [queue]
  | .setRqInterrupt p => [p.queue, p.enable, p.vector, p.threshold] ++ bytes16 p.delay
  | .setTrip p => [p.unit, p.source, p.condition, p.enable, p.mask]
  | .clearTrip unit => [unit]
  | .fireTrip unit => [unit]
  | .unknown _ => []

/-- The record that spells a command: opcode, command id and parameters at their bytes, every other byte 0 (R194). -/
def encodeCommand (id : BitVec 16) (c : Command) : CommandRecord :=
  let bytes := [c.opcode, 0] ++ bytes16 id ++ zeroBytes 4 ++ c.paramBytes
  Vector.ofFn fun i : Fin 64 => bytes.getD i.val 0

/-- The host's question about a table word: no row of the table gives bits, so no word spells a command. -/
def decodeTableWord (_nbits _w : Nat) : Option Instr := none

end Sys2Proof
end

