-- ==== Sys2Proof/Config.lean ====
section
/-!
DEFINITION. What is fixed for the part: the numbers of 00_scope.md, and the free values. A free value has no body: nothing in
Lean can evaluate it. `State.freeIndex` counts the choices taken, and a free value is applied to it (log entries 4 and 5).
-/

namespace Sys2Proof.Config

/-- The vendor code of the ID register and the identity record (R195, R196). -/
def vendorCode : BitVec 16 := 0x005A

/-- The part code (R179). -/
def partCode : BitVec 16 := 0x4808

/-- The revision (R195). -/
def revision : BitVec 8 := 0x01

/-- The limit of a memory read, in ticks (R17). -/
def readLimit : Time := 1000000

/-- Ticks in one microsecond (00_scope.md, Numbers, times and units). -/
def ticksPerMicrosecond : Time := 100

/-- The places of a prefetch list (R12). -/
def prefetchPlaces : Nat := 8

/-- A free value: the order in which consumers, tracks or events that the spec puts in either order are taken. The list names
places in what is left to take; every order of every list is some list of places (R66, R105, R106, R122; log entry 4). -/
opaque pickOrder : Nat → List Nat

/-- A free value: whether the host port still holds this requester's read, handed to it and not yet carried on the link, at the
moment a soft reset abandons such reads (R190; log entry 5). -/
opaque readNotCarried : Nat → Requester → Bool

end Sys2Proof.Config
end

