-- ==== Sys2Proof/Machine/State.lean ====
section
/-!
DEFINITION. The state of the block as plain data, the reasons a command can stop, and the state after power-on. Every piece of
state of INVENTORY.md's '## State' is here; the fields that are the model's own say so.
-/

namespace Sys2Proof.Machine

/-- The block has no fault of its own: the spec lets no command stop it (FAULTED is a state of the device, R187, and a next
state of the model). Nobody raises a Fault; safe. -/
inductive Fault where
deriving DecidableEq, Repr

/-- Why a command has no meaning. -/
inductive Refusal where
  /-- Raised by exec's arm of a row that has no meaning yet; safe. No arm raises it: every row has its meaning. -/
  | notModelled (mnemonic : String)
deriving DecidableEq, Repr

/-! ## Named values -/

/-- The device state (R181). -/
inductive DevState where
  | idle | ready | halted | faulted | resetting
deriving DecidableEq, Repr

/-- The config-error code of STAT (R181, R182). -/
inductive ConfigError where
  | none | aqSize | aqBase | rq0Size | rq0Base
deriving DecidableEq, Repr

/-- The fault cause of STAT (R181, R187). -/
inductive FaultCause where
  | none | aqFetch | rq0Write
deriving DecidableEq, Repr

/-- The mode of a signal line (R82). -/
inductive LineMode where
  | off | input | static | track | parked
deriving DecidableEq, Repr

/-- The state of a pin driver (R82). -/
inductive Drive where
  | low | high | float
deriving DecidableEq, Repr

/-- A line's safe mode (R86). -/
inductive SafeMode where
  | hold | float | low | high
deriving DecidableEq, Repr

/-- A line's capture mode (R82). -/
inductive CaptureMode where
  | none | rise | fall | both
deriving DecidableEq, Repr

/-- The kind of a step record (R6); `finish` is END. -/
inductive StepKind where
  | level | mark | wait | loop | next | finish
deriving DecidableEq, Repr

/-- How a due time is formed (R6). -/
inductive DueMode where
  | abs | rel | now
deriving DecidableEq, Repr

/-- The condition of a WAIT (R9). -/
inductive WaitCond where
  | high | low | rise | fall | edge
deriving DecidableEq, Repr

/-- What a WAIT does when its timeout expires (R9). -/
inductive OnTimeout where
  | goOn | fault
deriving DecidableEq, Repr

/-- A track's late policy (R35, R36). -/
inductive LatePolicy where
  | apply | skip | fault
deriving DecidableEq, Repr

/-- The state of a track (R26). -/
inductive TrackState where
  | unbound | stopped | armed | due | inputWait | empty | paused | safe
deriving DecidableEq, Repr

/-- The running state a pause left (R26). -/
inductive PausedFrom where
  | due | inputWait | empty
deriving DecidableEq, Repr

/-- What a BAD-STEP check found (R21). -/
inductive Subcode where
  | unknownKind | badDue | maskRange | badLine | badCondition | loopCount | nestedLoop | nextWithoutLoop
deriving DecidableEq, Repr

/-- Why a track is SAFE (R131); BAD-STEP carries its subcode. -/
inductive SafeCause where
  | trip (u : UnitId)
  | starved
  | late
  | waitTimeout
  | badStep (c : Subcode)
  | hostMemory
  | deviceFault
deriving DecidableEq, Repr

/-- Where a track entered SAFE from (R75, R128). -/
inductive SafeFrom where
  | notStarted | started
deriving DecidableEq, Repr

/-- The lines choice of a stop (R68). -/
inductive StopLines where
  | hold | park
deriving DecidableEq, Repr

/-- How a timed step retired (R56). -/
inductive StepOutcome where
  | applied | appliedLate | skipped | waitMet | waitTimeout
deriving DecidableEq, Repr

/-- The event of a TRACK-EVENT (R58). -/
inductive TrackEventKind where
  | started | ended | stopped | resumed | safe
deriving DecidableEq, Repr

/-- The state of a trip unit (R117). -/
inductive TripState where
  | disarmed | armed | fired
deriving DecidableEq, Repr

/-- The condition of a trip unit (R117). -/
inductive TripCond where
  | rise | fall | high | low
deriving DecidableEq, Repr

/-- Why a trip unit fired (R117). -/
inductive FireCause where
  | edge | level | host
deriving DecidableEq, Repr

/-- The state of a report queue (R133). -/
inductive RqState where
  | absent | active | failed
deriving DecidableEq, Repr

/-- The status an ADMIN-DONE carries (R176). -/
inductive Status where
  | ok | badOpcode | badTarget | badParam | badTime | state | busy | lineBusy | noQueue | queueInUse | tripActive | stepInvalid
  | dmaError
deriving DecidableEq, Repr

/-! ## Reports -/

/-- The four overflow counts of a report queue (R141), saturating at 65535. -/
structure OverflowCounts where
  stepDone : BitVec 16
  capture : BitVec 16
  trackEvent : BitVec 16
  other : BitVec 16
deriving DecidableEq, Repr

/-- All four counts 0. -/
def OverflowCounts.zero : OverflowCounts := ⟨0, 0, 0, 0⟩

/-- A trip unit's last fire: its cause, its time and the tracks it moved into SAFE (R122). -/
structure FireRecord where
  cause : FireCause
  time : Time
  moved : BitVec 8
deriving DecidableEq, Repr

/-- The result an ADMIN-DONE may carry (R152): of CLEAR-TRIP (R125) or of DELETE-RQ (R151). -/
inductive AdminResult where
  | fire (r : FireRecord)
  | deleted (state : RqState) (counts : OverflowCounts)
deriving DecidableEq, Repr

/-- The kind of a report with its kind fields (R136, R193). -/
inductive ReportBody where
  | adminDone (opcode : Byte) (status : Status) (taken : Nat) (result : Option AdminResult)
  | stepDone (outcome : StepOutcome) (due : Time) (pos : Nat) (pass : BitVec 16) (retire : Nat) (unreported : BitVec 8)
  | capture (missed : BitVec 8) (level : Level) (levels : BitVec 48) (delay : BitVec 16) (period width : Option (BitVec 32))
  | trackEvent (event : TrackEventKind) (cause : Option SafeCause) (pos abandoned retire : Nat)
  | trip (cause : FireCause) (moved : BitVec 8) (edge : Option Time)
  | postRefused (index : BitVec 16)
  | releaseRefused (index : BitVec 16)
  | rqFailed (slot : Nat) (seq : BitVec 16)
  | overflow (counts : OverflowCounts)
deriving DecidableEq, Repr

/-- A report as a block hands it to the report writer: the pass bit and the sequence number come with the slot (R136, R138). -/
structure Report where
  source : Byte
  tag : BitVec 16
  time : Time
  body : ReportBody
deriving DecidableEq, Repr

/-! ## The tracks -/

/-- A record of the prefetch list with its ring position (R12). -/
structure Fetched where
  record : StepRecord
  pos : Nat
deriving DecidableEq, Repr

/-- The current step (R26): the record as copied from the list, its ring position, its due time once it is fixed, the wait start
once the wait has begun (the wait-begun mark is its presence), and the pass recorded with it (R28). -/
structure CurrentStep where
  record : StepRecord
  pos : Nat
  due : Option Time
  waitStart : Option Time
  pass : BitVec 16
deriving DecidableEq, Repr

/-- The loop context (R26, R45). -/
structure LoopCtx where
  start : Nat
  pos : Nat
  remaining : BitVec 16
  pass : BitVec 16
deriving DecidableEq, Repr

/-- The read-in-flight record (R13). -/
structure ReadInFlight where
  start : Nat
  count : Nat
  stale : Bool
deriving DecidableEq, Repr

/-- A retire-word write in flight: the index it carries, and whether an earlier binding issued it (R23, R25). -/
structure RetireWrite where
  value : Nat
  earlier : Bool
deriving DecidableEq, Repr

/-- A track context: the sequence queue context of R1, the execution context of R26, the start time of R65, the retire-word
context of R23 and what BIND-TRACK stored (R61). -/
structure Track where
  state : TrackState
  pausedFrom : Option PausedFrom
  safeCause : Option SafeCause
  safeFrom : Option SafeFrom
  current : Option CurrentStep
  refTime : Time
  loop : Option LoopCtx
  stopReq : Option StopLines
  startTime : Option Time
  dueTimer : Option Time
  timeoutTimer : Option Time
  holdTimer : Option Time
  applied : BitVec 32
  late : BitVec 32
  skipped : BitVec 32
  unreported : BitVec 8
  sqBase : Addr
  sqSize : Nat
  post : Nat
  fetch : Nat
  retire : Nat
  epoch : BitVec 8
  prefetch : List Fetched
  read : Option ReadInFlight
  retireAddr : Addr
  retireWrite : Option RetireWrite
  lanes : List LineId
  rq : QueueId
  latePolicy : LatePolicy
  tolerance : BitVec 16
  holdLimit : BitVec 16
deriving DecidableEq, Repr

/-- A track after power-on: UNBOUND, every field 0, idle or absent (R26, R81). The late policy of an UNBOUND track has no value
in the spec: APPLY is a DESIGN CHOICE (log entry 7). -/
def Track.powerOn : Track where
  state := .unbound
  pausedFrom := none
  safeCause := none
  safeFrom := none
  current := none
  refTime := 0
  loop := none
  stopReq := none
  startTime := none
  dueTimer := none
  timeoutTimer := none
  holdTimer := none
  applied := 0
  late := 0
  skipped := 0
  unreported := 0
  sqBase := 0
  sqSize := 0
  post := 0
  fetch := 0
  retire := 0
  epoch := 0
  prefetch := []
  read := none
  retireAddr := 0
  retireWrite := none
  lanes := []
  rq := 0
  latePolicy := .apply
  tolerance := 0
  holdLimit := 0

/-! ## The lines -/

/-- The owner of a line in TRACK mode and its lane number (R82). -/
structure LaneRef where
  track : TrackId
  lane : Fin 16
deriving DecidableEq, Repr

/-- A line cell with its conditioner state (R82, R98). `pendingStart` is the start time of a pending change. -/
structure Line where
  mode : LineMode
  owner : Option LaneRef
  drive : Drive
  staticLevel : Level
  safeMode : SafeMode
  window : BitVec 16
  captureMode : CaptureMode
  captureRq : QueueId
  interval : Bool
  raw : Level
  accepted : Level
  pendingStart : Option Time
  windowTimer : Option Time
  glitch : BitVec 16
  lastRise : Option Time
  lastFall : Option Time
  missed : BitVec 8
deriving DecidableEq, Repr

/-- A line cell after power-on (R82). -/
def Line.powerOn : Line where
  mode := .off
  owner := none
  drive := .float
  staticLevel := .low
  safeMode := .float
  window := 0
  captureMode := .none
  captureRq := 0
  interval := false
  raw := .low
  accepted := .low
  pendingStart := none
  windowTimer := none
  glitch := 0
  lastRise := none
  lastFall := none
  missed := 0

/-! ## The trip units -/

/-- A trip context (R117). -/
structure Trip where
  state : TripState
  source : LineId
  condition : TripCond
  mask : BitVec 8
  lastFire : Option FireRecord
deriving DecidableEq, Repr

/-- A trip context after any reset (R117). -/
def Trip.afterReset : Trip where
  state := .disarmed
  source := 0
  condition := .rise
  mask := 0
  lastFire := none

/-! ## The report queues -/

/-- The moderation context of a report queue (R155). -/
structure Moderation where
  enable : Bool
  vector : VectorId
  threshold : Nat
  delay : BitVec 16
  unsignalled : Nat
  timer : Option Time
deriving DecidableEq, Repr

/-- A moderation context after any reset (R155). -/
def Moderation.afterReset : Moderation where
  enable := false
  vector := 0
  threshold := 1
  delay := 0
  unsignalled := 0
  timer := none

/-- An entry of the report queue table (R133); the waiting ADMIN-DONE of RQ0 is a field of State and the reserve is fixed. -/
structure ReportQueue where
  state : RqState
  closing : Bool
  base : Addr
  size : Nat
  write : Nat
  release : Nat
  lap : Bool
  pass : Bool
  seq : BitVec 16
  counts : OverflowCounts
  inFlight : Nat
  irq : Moderation
deriving DecidableEq, Repr

/-- A table entry after any reset (R133). -/
def ReportQueue.absent : ReportQueue where
  state := .absent
  closing := false
  base := 0
  size := 0
  write := 0
  release := 0
  lap := false
  pass := false
  seq := 0
  counts := OverflowCounts.zero
  inFlight := 0
  irq := Moderation.afterReset

/-! ## The admin engine -/

/-- The command in hand once it is taken: its AQ position, its command id, the command and its taking time (R167). -/
structure InHand where
  pos : Nat
  id : BitVec 16
  command : Command
  taking : Time
deriving DecidableEq, Repr

/-- The state of the admin engine with what it holds (R167). EXECUTING holds the queue a DELETE-RQ drains and the result fixed at
its taking (R151). -/
inductive Engine where
  | idleWait
  | fetching (pos : Nat)
  | executing (hand : InHand) (queue : QueueId) (result : AdminResult)
  | writing (hand : InHand)
  | waitSlot (hand : InHand)
deriving DecidableEq, Repr

/-- The admin queue context (R164) and the engine. -/
structure Admin where
  base : Addr
  size : Nat
  post : Nat
  taken : Nat
  engine : Engine
deriving DecidableEq, Repr

/-- The admin engine after any reset (R164, R167). -/
def Admin.afterReset : Admin where
  base := 0
  size := 0
  post := 0
  taken := 0
  engine := .idleWait

/-! ## The host port -/

/-- The registers and device state of the host port (R179, R181). `readData` is the model's own: what the last TIML read
returned. -/
structure Port where
  dev : DevState
  run : Bool
  configError : ConfigError
  faultCause : FaultCause
  aqbl : BitVec 32
  aqbh : BitVec 32
  aqsz : BitVec 32
  r0bl : BitVec 32
  r0bh : BitVec 32
  r0sz : BitVec 32
  timh : BitVec 32
  readData : BitVec 32
deriving DecidableEq, Repr

/-- The host port after power-on (R179, R181). -/
def Port.powerOn : Port where
  dev := .idle
  run := false
  configError := .none
  faultCause := .none
  aqbl := 0
  aqbh := 0
  aqsz := 0
  r0bl := 0
  r0bh := 0
  r0sz := 0
  timh := 0
  readData := 0

/-- A memory read that has been issued and not completed, with the device time of its issue (R17). -/
structure PendingRead where
  who : Requester
  issued : Time
deriving DecidableEq, Repr

/-- What a memory write is for, and so which command completes it. -/
inductive WritePurpose where
  | entry (q : QueueId) (slot : Nat) (seq : BitVec 16)
  | retireWord (t : TrackId)
  | buffer
deriving DecidableEq, Repr

/-- A memory write that has been issued and not completed: its address, its bytes and its purpose (R191: one write a record). -/
structure PendingWrite where
  addr : Addr
  data : List Byte
  purpose : WritePurpose
deriving DecidableEq, Repr

/-- One thing the part has handed to the host port for the link. -/
inductive LinkItem where
  | read (addr : Addr) (length : Nat)
  | write (addr : Addr) (data : List Byte)
  | message (v : VectorId)
deriving DecidableEq, Repr

/-- The link side of the host port: reads and writes in flight, oldest first; per vector the function's mask and the pending mark;
whether message-signalled interrupts are allowed (R162); and, the model's own, all that was handed to the link, oldest first. -/
structure Link where
  reads : List PendingRead
  writes : List PendingWrite
  masked : Vector Bool 8
  marks : Vector Bool 8
  msiAllowed : Bool
  out : List LinkItem
deriving DecidableEq, Repr

/-- The link at power-on: nothing in flight and every mark clear (R162, R190). The function's configuration is not covered by the
spec: no vector masked and messages allowed are DESIGN CHOICES (log entry 8). -/
def Link.powerOn : Link where
  reads := []
  writes := []
  masked := Vector.replicate 8 false
  marks := Vector.replicate 8 false
  msiAllowed := true
  out := []

/-- What the sampler of R99 knows of the present tick: the levels the pins showed and the drives the cells held as the tick began,
and the lines whose raw change of this tick has been taken. The model's own (log entry 24). -/
structure Sampler where
  pins : Vector Level 48
  drives : Vector Drive 48
  changed : Vector Bool 48
deriving DecidableEq, Repr

/-- The sampler as a tick begins over these pins and line cells. -/
def Sampler.begin (pins : Vector Level 48) (lines : Vector Line 48) : Sampler where
  pins := pins
  drives := Vector.ofFn fun l => (lines[l] : Line).drive
  changed := Vector.replicate 48 false

/-- The state of the TQ-4808, with the queue of waiting commands. The model's own fields: `pins`, the level each pin shows (the
outside circuit sets it, RAW_CHANGE tells it); `sampler`; `freeIndex`, the number of free choices taken; `pending`. -/
structure State where
  time : Time
  port : Port
  admin : Admin
  lastGranted : TrackId
  tracks : Vector Track 8
  lines : Vector Line 48
  pins : Vector Level 48
  sampler : Sampler
  trips : Vector Trip 2
  rqs : Vector ReportQueue 8
  waiting : Option Report
  link : Link
  freeIndex : Nat
  pending : List Instr
deriving DecidableEq, Repr

/-- The state right after power-on (R181, R190): device time 0, IDLE, every block at its power-on values, no command waiting. -/
def State.reset : State where
  time := 0
  port := Port.powerOn
  admin := Admin.afterReset
  lastGranted := 7
  tracks := Vector.replicate 8 Track.powerOn
  lines := Vector.replicate 48 Line.powerOn
  pins := Vector.replicate 48 .low
  sampler := Sampler.begin (Vector.replicate 48 .low) (Vector.replicate 48 Line.powerOn)
  trips := Vector.replicate 2 Trip.afterReset
  rqs := Vector.replicate 8 ReportQueue.absent
  waiting := none
  link := Link.powerOn
  freeIndex := 0
  pending := []

end Sys2Proof.Machine
end

