-- ==== Sys2Proof/Machine/Ops.lean ====
section
/-!
DEFINITION. The named operations over the state: reading and replacing one track, line, trip unit or report queue; ring
arithmetic; saturating counts and timers; the free order; and the link (reads, writes and messages handed to the host port).
-/

namespace Sys2Proof.Machine

/-! ## The numbered parts -/

/-- The context of a track. -/
def State.track (s : State) (t : TrackId) : Track := s.tracks[t]

/-- The state with another context for a track. -/
def State.setTrack (s : State) (t : TrackId) (c : Track) : State := { s with tracks := s.tracks.set t c }

/-- The cell of a line. -/
def State.line (s : State) (l : LineId) : Line := s.lines[l]

/-- The state with another cell for a line. -/
def State.setLine (s : State) (l : LineId) (c : Line) : State := { s with lines := s.lines.set l c }

/-- The state with every line cell changed at once: the form of a claim that names several lines (R85). -/
def State.mapLines (s : State) (f : LineId → Line → Line) : State :=
  { s with lines := Vector.ofFn fun l => f l s.lines[l] }

/-- The level a pin shows. -/
def State.pin (s : State) (l : LineId) : Level := s.pins[l]

/-- The context of a trip unit. -/
def State.trip (s : State) (u : UnitId) : Trip := s.trips[u]

/-- The state with another context for a trip unit. -/
def State.setTrip (s : State) (u : UnitId) (c : Trip) : State := { s with trips := s.trips.set u c }

/-- The table entry of a report queue. -/
def State.rq (s : State) (q : QueueId) : ReportQueue := s.rqs[q]

/-- The state with another table entry for a report queue. -/
def State.setRq (s : State) (q : QueueId) (c : ReportQueue) : State := { s with rqs := s.rqs.set q c }

/-- The state with the moderation context of a report queue replaced. -/
def State.setIrq (s : State) (q : QueueId) (m : Moderation) : State := s.setRq q { s.rq q with irq := m }

/-- The state with another device state. -/
def State.setDev (s : State) (d : DevState) : State := { s with port := { s.port with dev := d } }

/-- The state with the admin engine in another state. -/
def State.setEngine (s : State) (e : Engine) : State := { s with admin := { s.admin with engine := e } }

/-- The number below `n` that a byte names, when it names one. -/
def numberBelow (n : Nat) (b : Byte) : Option (Fin n) := if h : b.toNat < n then some ⟨b.toNat, h⟩ else none

/-- A list of positions as a bit field, bit i for number i. -/
def bitsOf (n : Nat) (f : Fin n → Bool) : BitVec n :=
  BitVec.ofNat n ((List.finRange n).foldr (fun i rest => (f i).toNat + 2 * rest) 0)

/-! ## Rings, counts and timers -/

/-- `a` minus `b` modulo the ring size (00_scope.md, Rings). -/
def ringDist (size a b : Nat) : Nat := (a + (size - b % size)) % size

/-- A power of two between two limits, both of them powers of two below 2 ^ 13. -/
def ringSizeOk (least most n : Nat) : Bool := least ≤ n && n ≤ most && (List.range 13).any fun k => n == 2 ^ k

/-- A saturating count after one more (00_scope.md, Numbers, times and units). -/
def satInc {w : Nat} (x : BitVec w) : BitVec w := if x = BitVec.allOnes w then x else x + 1

/-- A span given in microseconds, in ticks. -/
def ticksOf (us : BitVec 16) : Time := us.setWidth 64 * Config.ticksPerMicrosecond

/-- A set timer whose moment the device time has reached (R27, R98, R155). -/
def reached (timer : Option Time) (now : Time) : Bool :=
  match timer with
  | some moment => moment ≤ now
  | none => false

/-- A level as a bit. -/
def levelHigh : Level → Bool
  | .high => true
  | .low => false

/-- The level of a bit. -/
def levelOf (b : Bool) : Level := if b then .high else .low

/-- The drive that shows a level. -/
def driveOf : Level → Drive
  | .high => .high
  | .low => .low

/-! ## The free order -/

/-- The list taken in the order that the named places give: each place names one of those left. -/
def pick {α : Type} : List Nat → List α → List α
  | [], rest => rest
  | k :: ks, rest =>
    match rest[k]? with
    | some x => x :: pick ks (rest.eraseIdx k)
    | none => pick ks rest

/-- The order in which these are taken where the spec puts them in either order (log entry 4). Fewer than two need no choice. -/
def State.freeOrder {α : Type} (s : State) (xs : List α) : List α :=
  if xs.length ≤ 1 then xs else pick (Config.pickOrder s.freeIndex) xs

/-- The state after the choice of an order for these. -/
def State.afterOrder {α : Type} (s : State) (xs : List α) : State :=
  if xs.length ≤ 1 then s else { s with freeIndex := s.freeIndex + 1 }

/-! ## The link -/

/-- A read is handed to the host port (R19): it is in flight from its issue on. -/
def State.issueRead (s : State) (who : Requester) (addr : Addr) (length : Nat) : State :=
  { s with link := { s.link with reads := s.link.reads ++ [{ who := who, issued := s.time }],
                                 out := s.link.out ++ [.read addr length] } }

/-- A write is handed to the host port, after every write and message handed before it (R139, R157). -/
def State.issueWrite (s : State) (w : PendingWrite) : State :=
  { s with link := { s.link with writes := s.link.writes ++ [w], out := s.link.out ++ [.write w.addr w.data] } }

/-- The read of a requester that is in flight, if there is one. -/
def State.readOf (s : State) (who : Requester) : Option PendingRead := s.link.reads.find? fun r => r.who == who

/-- The state without the read of a requester in flight. -/
def State.dropRead (s : State) (who : Requester) : State :=
  { s with link := { s.link with reads := s.link.reads.eraseP fun r => r.who == who } }

/-- An entry write of this report queue. -/
def WritePurpose.isEntryOf (q : QueueId) : WritePurpose → Bool
  | .entry q' _ _ => q' == q
  | _ => false

/-- The oldest write in flight with a purpose, if there is one: the writes of one queue complete in their order (R145). -/
def State.writeOf (s : State) (p : WritePurpose → Bool) : Option PendingWrite := s.link.writes.find? fun w => p w.purpose

/-- The state without the oldest write in flight with a purpose. -/
def State.dropWrite (s : State) (p : WritePurpose → Bool) : State :=
  { s with link := { s.link with writes := s.link.writes.eraseP fun w => p w.purpose } }

/-- The host port turns a message into the link's interrupt message, keeps a pending mark for a masked vector, or drops it when
messages are not allowed (R162). -/
def State.sendMessage (s : State) (v : VectorId) : State :=
  if !s.link.msiAllowed then s
  else if s.link.masked[v] then { s with link := { s.link with marks := s.link.marks.set v true } }
  else { s with link := { s.link with out := s.link.out ++ [.message v] } }

/-- RESETTING ends in the event in which the last read or write completes or is abandoned (R190). -/
def State.endIfDrained (s : State) : State :=
  if s.port.dev = .resetting ∧ s.link.reads = [] ∧ s.link.writes = [] then s.setDev .idle else s

end Sys2Proof.Machine
end

