-- ==== Sys2Proof/Machine/Flags.lean ====
section
/-!
DEFINITION. The codes of the named values (the table of R191) as the part writes them into records and registers, and the marks
and status words built from them.
-/

namespace Sys2Proof.Machine

/-- The code of a level. -/
def levelCode : Level → Byte
  | .low => 0
  | .high => 1

/-- The code of a line mode as the part writes it. -/
def LineMode.code : LineMode → Byte
  | .off => 0
  | .input => 1
  | .static => 2
  | .track => 3
  | .parked => 4

/-- The code of a drive. -/
def Drive.code : Drive → Byte
  | .low => 0
  | .high => 1
  | .float => 2

/-- The code of a safe mode. -/
def SafeMode.code : SafeMode → Byte
  | .hold => 0
  | .float => 1
  | .low => 2
  | .high => 3

/-- The code of a track state. -/
def TrackState.code : TrackState → Byte
  | .unbound => 0
  | .stopped => 1
  | .armed => 2
  | .due => 3
  | .inputWait => 4
  | .empty => 5
  | .paused => 6
  | .safe => 7

/-- The code of *paused-from*: the track-state codes. -/
def PausedFrom.code : PausedFrom → Byte
  | .due => 3
  | .inputWait => 4
  | .empty => 5

/-- The code of a BAD-STEP subcode. -/
def Subcode.code : Subcode → Byte
  | .unknownKind => 1
  | .badDue => 2
  | .maskRange => 3
  | .badLine => 4
  | .badCondition => 5
  | .loopCount => 6
  | .nestedLoop => 7
  | .nextWithoutLoop => 8

/-- The code of a safe cause. -/
def SafeCause.code : SafeCause → Byte
  | .trip u => if u = 0 then 1 else 2
  | .starved => 3
  | .late => 4
  | .waitTimeout => 5
  | .badStep _ => 6
  | .hostMemory => 7
  | .deviceFault => 8

/-- The subcode a safe cause carries: 0 but for BAD-STEP. -/
def SafeCause.subcode : SafeCause → Byte
  | .badStep c => c.code
  | .trip _ | .starved | .late | .waitTimeout | .hostMemory | .deviceFault => 0

/-- The code of *safe-from*. -/
def SafeFrom.code : SafeFrom → Byte
  | .notStarted => 1
  | .started => 2

/-- The code of a stop request. -/
def StopLines.code : StopLines → Byte
  | .hold => 1
  | .park => 2

/-- The code of a STEP-DONE outcome. -/
def StepOutcome.code : StepOutcome → Byte
  | .applied => 1
  | .appliedLate => 2
  | .skipped => 3
  | .waitMet => 4
  | .waitTimeout => 5

/-- The code of a TRACK-EVENT event. -/
def TrackEventKind.code : TrackEventKind → Byte
  | .started => 1
  | .ended => 2
  | .stopped => 3
  | .resumed => 4
  | .safe => 5

/-- The code of a fire cause. -/
def FireCause.code : FireCause → Byte
  | .edge => 1
  | .level => 2
  | .host => 3

/-- The code of a status. -/
def Status.code : Status → Byte
  | .ok => 0
  | .badOpcode => 1
  | .badTarget => 2
  | .badParam => 3
  | .badTime => 4
  | .state => 5
  | .busy => 6
  | .lineBusy => 7
  | .noQueue => 8
  | .queueInUse => 9
  | .tripActive => 10
  | .stepInvalid => 11
  | .dmaError => 12

/-- The code of a queue state in the result of DELETE-RQ; an ABSENT queue is never deleted and has no code. -/
def RqState.code : RqState → Byte
  | .absent => 0
  | .active => 1
  | .failed => 2

/-- The code of the device state in STAT (R196). -/
def DevState.code : DevState → BitVec 32
  | .idle => 0
  | .ready => 1
  | .halted => 2
  | .faulted => 3
  | .resetting => 4

/-- The config-error code in STAT (R196). -/
def ConfigError.code : ConfigError → BitVec 32
  | .none => 0
  | .aqSize => 1
  | .aqBase => 2
  | .rq0Size => 3
  | .rq0Base => 4

/-- The fault cause in STAT (R196). -/
def FaultCause.code : FaultCause → BitVec 32
  | .none => 0
  | .aqFetch => 1
  | .rq0Write => 2

/-- The code of an optional value, 0 when it is absent (R191). -/
def codeOr {α : Type} (code : α → Byte) (x : Option α) : Byte := (x.map code).getD 0

/-- A flag in bit `i` of a byte. -/
def flagAt (i : Nat) (b : Bool) : Byte := if b then 1 <<< i else 0

/-- The STAT register (R181, R196). -/
def statWord (p : Port) : BitVec 32 := p.dev.code ||| (p.configError.code <<< 8) ||| (p.faultCause.code <<< 16)

/-- The ID register (R196). -/
def idWord : BitVec 32 := Config.partCode ++ (Config.vendorCode.setWidth 8 ++ Config.revision)

end Sys2Proof.Machine
end

