-- ==== Sys2Proof/Machine/Operands.lean ====
section
/-!
DEFINITION. The operands as the part reads them: the codes of R191 in the bytes of a command or a step record, and the fields of
a step record at the bytes of R192. A code the table does not give is an unknown value: the answer is none.
-/

namespace Sys2Proof.Machine

/-! ## Codes -/

/-- A step kind. -/
def stepKind? (b : Byte) : Option StepKind :=
  match b.toNat with
  | 1 => some .level
  | 2 => some .mark
  | 3 => some .wait
  | 4 => some .loop
  | 5 => some .next
  | 6 => some .finish
  | _ => none

/-- A due mode. -/
def dueMode? (b : Byte) : Option DueMode :=
  match b.toNat with
  | 1 => some .abs
  | 2 => some .rel
  | 3 => some .now
  | _ => none

/-- A WAIT condition. -/
def waitCond? (b : Byte) : Option WaitCond :=
  match b.toNat with
  | 1 => some .high
  | 2 => some .low
  | 3 => some .rise
  | 4 => some .fall
  | 5 => some .edge
  | _ => none

/-- An on-timeout value. -/
def onTimeout? (b : Byte) : Option OnTimeout :=
  match b.toNat with
  | 1 => some .goOn
  | 2 => some .fault
  | _ => none

/-- A late policy. -/
def latePolicy? (b : Byte) : Option LatePolicy :=
  match b.toNat with
  | 1 => some .apply
  | 2 => some .skip
  | 3 => some .fault
  | _ => none

/-- A trip condition. -/
def tripCond? (b : Byte) : Option TripCond :=
  match b.toNat with
  | 1 => some .rise
  | 2 => some .fall
  | 3 => some .high
  | 4 => some .low
  | _ => none

/-- A level. -/
def level? (b : Byte) : Option Level :=
  match b.toNat with
  | 0 => some .low
  | 1 => some .high
  | _ => none

/-- A safe mode. -/
def safeMode? (b : Byte) : Option SafeMode :=
  match b.toNat with
  | 0 => some .hold
  | 1 => some .float
  | 2 => some .low
  | 3 => some .high
  | _ => none

/-- A capture mode. -/
def captureMode? (b : Byte) : Option CaptureMode :=
  match b.toNat with
  | 0 => some .none
  | 1 => some .rise
  | 2 => some .fall
  | 3 => some .both
  | _ => none

/-- An enable field: 0 or 1. -/
def enable? (b : Byte) : Option Bool :=
  match b.toNat with
  | 0 => some false
  | 1 => some true
  | _ => none

/-- The mode field of SET-LINE: KEEP, or the mode given. -/
inductive ModeChoice where
  | keep
  | give (m : LineMode)
deriving DecidableEq, Repr

/-- The mode of SET-LINE. -/
def setLineMode? (b : Byte) : Option ModeChoice :=
  match b.toNat with
  | 0 => some .keep
  | 1 => some (.give .off)
  | 2 => some (.give .input)
  | 3 => some (.give .static)
  | _ => none

/-- The mode of START-TRACKS: NOW is false, AT is true. -/
def startAt? (b : Byte) : Option Bool :=
  match b.toNat with
  | 1 => some false
  | 2 => some true
  | _ => none

/-- The *when* of STOP-TRACK: NOW is false, BOUNDARY is true. -/
def stopAtBoundary? (b : Byte) : Option Bool :=
  match b.toNat with
  | 1 => some false
  | 2 => some true
  | _ => none

/-- The *lines* of STOP-TRACK. -/
def stopLines? (b : Byte) : Option StopLines :=
  match b.toNat with
  | 1 => some .hold
  | 2 => some .park
  | _ => none

/-- The *action* of RESUME-TRACK: CONTINUE is false, FLUSH is true. -/
def resumeFlush? (b : Byte) : Option Bool :=
  match b.toNat with
  | 1 => some false
  | 2 => some true
  | _ => none

/-- The *time* of RESUME-TRACK: KEEP is false, REBASE is true. -/
def resumeRebase? (b : Byte) : Option Bool :=
  match b.toNat with
  | 1 => some true
  | 2 => some false
  | _ => none

/-! ## The fields of a step record (R192) -/

/-- The kind, when it is one of the six. -/
def recKind (r : StepRecord) : Option StepKind := stepKind? r[0]

/-- *notify*: bit 0 of byte 1. -/
def recNotify (r : StepRecord) : Bool := r[1].getLsbD 0

/-- The due mode, when it is known. -/
def recDueMode (r : StepRecord) : Option DueMode := dueMode? r[2]

/-- The tag. -/
def recTag (r : StepRecord) : BitVec 16 := le16 r[4] r[5]

/-- The *due* field. -/
def recDue (r : StepRecord) : Time := le64 r[8] r[9] r[10] r[11] r[12] r[13] r[14] r[15]

/-- The *mask* of a LEVEL. -/
def recMask (r : StepRecord) : BitVec 16 := le16 r[16] r[17]

/-- The *value* of a LEVEL. -/
def recValue (r : StepRecord) : BitVec 16 := le16 r[18] r[19]

/-- The *line* of a WAIT, when it is below 48. -/
def recLine (r : StepRecord) : Option LineId := numberBelow 48 r[16]

/-- The *condition* of a WAIT, when it is known. -/
def recCond (r : StepRecord) : Option WaitCond := waitCond? r[17]

/-- The *on-timeout* of a WAIT, when it is known. -/
def recOnTimeout (r : StepRecord) : Option OnTimeout := onTimeout? r[18]

/-- The *timeout* of a WAIT, in ticks. -/
def recTimeout (r : StepRecord) : BitVec 32 := le32 r[20] r[21] r[22] r[23]

/-- The *count* of a LOOP. -/
def recCount (r : StepRecord) : BitVec 16 := le16 r[16] r[17]

/-- The check of a record that becomes current, on a track with this many lanes and perhaps an active loop: the subcode of the
first check that fails, in the order of R21. -/
def checkRecord (laneCount : Nat) (loopActive : Bool) (r : StepRecord) : Option Subcode :=
  match recKind r with
  | none => some .unknownKind
  | some .level =>
    if recDueMode r = none then some .badDue
    else if 2 ^ laneCount ≤ (recMask r).toNat then some .maskRange
    else none
  | some .mark => if recDueMode r = none then some .badDue else none
  | some .finish => if recDueMode r = none then some .badDue else none
  | some .wait =>
    if recDueMode r = none then some .badDue
    else if recLine r = none then some .badLine
    else if recCond r = none ∨ recOnTimeout r = none then some .badCondition
    else none
  | some .loop =>
    if recCount r = 0 then some .loopCount
    else if loopActive then some .nestedLoop
    else none
  | some .next => if loopActive then none else some .nextWithoutLoop

end Sys2Proof.Machine
end

