-- ==== Sys2Proof/Machine/Formats.lean ====
section
/-!
DEFINITION. The records the part writes, byte by byte: report entries (R193), the identity, track status and snapshot records
(R195). Every byte and bit that no field occupies is 0, and so is the value of an absent optional field (R191).
-/

namespace Sys2Proof.Machine

/-- The code of a report's kind (R191). -/
def ReportBody.kindCode : ReportBody → Byte
  | .adminDone _ _ _ _ => 1
  | .stepDone _ _ _ _ _ _ => 2
  | .capture _ _ _ _ _ _ => 3
  | .trackEvent _ _ _ _ _ => 4
  | .trip _ _ _ => 5
  | .postRefused _ => 6
  | .releaseRefused _ => 6
  | .rqFailed _ _ => 6
  | .overflow _ => 7

/-- Byte 5 of the entry (R193). -/
def ReportBody.kindByte : ReportBody → Byte
  | .adminDone opcode _ _ _ => opcode
  | .stepDone outcome _ _ _ _ _ => outcome.code
  | .capture missed _ _ _ _ _ => missed
  | .trackEvent event _ _ _ _ => event.code
  | .trip cause _ _ => cause.code
  | .postRefused _ => 1
  | .releaseRefused _ => 2
  | .rqFailed _ _ => 3
  | .overflow _ => 0

/-- Present mark A, present mark B and the new level, in bits 1 to 3 of byte 1 (R193). -/
def ReportBody.marks : ReportBody → Byte
  | .adminDone _ _ _ result => flagAt 1 result.isSome
  | .capture _ level _ _ period width => flagAt 1 period.isSome ||| flagAt 2 width.isSome ||| flagAt 3 (levelHigh level)
  | .trip _ _ edge => flagAt 1 edge.isSome
  | .stepDone _ _ _ _ _ _ | .trackEvent _ _ _ _ _ | .postRefused _ | .releaseRefused _ | .rqFailed _ _ | .overflow _ => 0

/-- The overflow counts as four 16-bit fields. -/
def OverflowCounts.bytes (c : OverflowCounts) : List Byte :=
  bytes16 c.stepDone ++ bytes16 c.capture ++ bytes16 c.trackEvent ++ bytes16 c.other

/-- Bytes 18 to 31 of an ADMIN-DONE (R193). -/
def resultBytes : Option AdminResult → List Byte
  | none => zeroBytes 14
  | some (.fire r) => [r.cause.code, r.moved] ++ zeroBytes 4 ++ bytes64 r.time
  | some (.deleted state counts) => [state.code, 0] ++ counts.bytes ++ zeroBytes 4

/-- Bytes 16 to 31 of the entry (R193). -/
def ReportBody.bytes : ReportBody → List Byte
  | .adminDone _ status taken result => [status.code, BitVec.ofNat 8 taken] ++ resultBytes result
  | .stepDone _ due pos pass retire unreported =>
    bytes64 due ++ bytes16 (BitVec.ofNat 16 pos) ++ bytes16 pass ++ bytes16 (BitVec.ofNat 16 retire) ++ [unreported, 0]
  | .capture _ _ levels delay period width =>
    bytes48 levels ++ bytes16 delay ++ bytes32 (period.getD 0) ++ bytes32 (width.getD 0)
  | .trackEvent _ cause pos abandoned retire =>
    [codeOr SafeCause.code cause, codeOr SafeCause.subcode cause] ++ bytes16 (BitVec.ofNat 16 pos)
      ++ bytes16 (BitVec.ofNat 16 abandoned) ++ bytes16 (BitVec.ofNat 16 retire) ++ zeroBytes 8
  | .trip _ moved edge => [moved] ++ zeroBytes 7 ++ bytes64 (edge.getD 0)
  | .postRefused index => bytes16 index ++ zeroBytes 14
  | .releaseRefused index => bytes16 index ++ zeroBytes 14
  | .rqFailed slot seq => bytes16 (BitVec.ofNat 16 slot) ++ bytes16 seq ++ zeroBytes 12
  | .overflow counts => counts.bytes ++ zeroBytes 8

/-- The 32 bytes of a report entry, with the pass bit and the sequence number its slot gave it (R136, R138, R193). -/
def encodeEntry (pass : Bool) (seq : BitVec 16) (r : Report) : List Byte :=
  [r.body.kindCode, flagAt 0 pass ||| r.body.marks] ++ bytes16 seq ++ [r.source, r.body.kindByte] ++ bytes16 r.tag
    ++ bytes64 r.time ++ r.body.bytes

/-- The 48 bytes of the identity record (R178, R195). -/
def identityRecord : List Byte :=
  bytes16 Config.vendorCode ++ bytes16 Config.partCode ++ [Config.revision, 48, 8, 16, 8, 8, 2, 8, 1] ++ zeroBytes 3
    ++ bytes16 4 ++ bytes16 4096 ++ bytes16 16 ++ bytes16 4096 ++ bytes16 4 ++ bytes16 256 ++ [32, 32, 64, 0]
    ++ bytes32 10 ++ zeroBytes 12

/-- The read in flight as the track status record codes it (R191). -/
def readCode : Option ReadInFlight → Byte
  | none => 0
  | some r => if r.stale then 2 else 1

/-- The 80 bytes of the track status record of a track context (R80, R195). *paused-from*, the cause, the subcode and *safe-from*
read 0 outside the states that give them a meaning (R191). -/
def trackStatusRecord (c : Track) : List Byte :=
  let paused := if c.state = .paused then codeOr PausedFrom.code c.pausedFrom else 0
  let cause := if c.state = .safe then codeOr SafeCause.code c.safeCause else 0
  let subcode := if c.state = .safe then codeOr SafeCause.subcode c.safeCause else 0
  let from' := if c.state = .safe then codeOr SafeFrom.code c.safeFrom else 0
  let waitStart := c.current.bind (·.waitStart)
  let marks := flagAt 0 c.current.isSome ||| flagAt 1 waitStart.isSome ||| flagAt 2 c.startTime.isSome
    ||| flagAt 3 c.loop.isSome ||| flagAt 4 c.stopReq.isSome
  [c.state.code, paused, cause, subcode, from', BitVec.ofNat 8 c.lanes.length, BitVec.ofNat 8 c.rq.val, marks]
    ++ bytes16 (BitVec.ofNat 16 c.post) ++ bytes16 (BitVec.ofNat 16 c.fetch) ++ bytes16 (BitVec.ofNat 16 c.retire)
    ++ [c.epoch, BitVec.ofNat 8 c.prefetch.length, readCode c.read, codeOr StopLines.code c.stopReq]
    ++ bytes16 (BitVec.ofNat 16 ((c.current.map (·.pos)).getD 0)) ++ bytes16 (BitVec.ofNat 16 ((c.loop.map (·.pos)).getD 0))
    ++ bytes16 ((c.loop.map (·.remaining)).getD 0) ++ bytes16 ((c.loop.map (·.pass)).getD 0) ++ [c.unreported, 0]
    ++ bytes32 c.applied ++ bytes64 ((c.current.bind (·.due)).getD 0) ++ bytes64 (waitStart.getD 0)
    ++ bytes64 (c.startTime.getD 0) ++ bytes64 c.refTime ++ bytes32 c.late ++ bytes32 c.skipped ++ zeroBytes 8

/-- Byte 1 of a snapshot entry: the owner's present mark, its track and the lane (R195). -/
def ownerByte : Option LaneRef → Byte
  | none => 0
  | some o => 0x80 ||| (BitVec.ofNat 8 o.track.val <<< 4) ||| BitVec.ofNat 8 o.lane.val

/-- The 8 bytes of one line in the snapshot record (R93, R195). -/
def snapshotEntry (c : Line) : List Byte :=
  [c.mode.code, ownerByte c.owner, c.drive.code, c.safeMode.code,
   flagAt 0 (levelHigh c.staticLevel) ||| flagAt 1 (levelHigh c.raw) ||| flagAt 2 (levelHigh c.accepted)
     ||| flagAt 3 c.pendingStart.isSome,
   c.missed] ++ bytes16 c.glitch

/-- The 392 bytes of the snapshot record: the device time of the taking and one entry per line, L0 first (R93, R195). -/
def snapshotRecord (s : State) : List Byte :=
  bytes64 s.time ++ (List.finRange 48).flatMap fun l => snapshotEntry (s.line l)

end Sys2Proof.Machine
end

