-- ==== Sys2Proof/Machine/Interrupts.lean ====
section
/-!
DEFINITION. The interrupt unit: counting completed entries, sending a message on a queue's behalf, and the fatal message
(chapter 8). What SET-RQ-INTERRUPT does to a context is here too; its checks are with the admin commands.
-/

namespace Sys2Proof.Machine

/-- A message is sent on a queue's behalf: on the vector of its context, with the count set to 0 and the timer idle (R157). -/
def sendFor (q : QueueId) (s : State) : State :=
  (s.setIrq q { (s.rq q).irq with unsignalled := 0, timer := none }).sendMessage (s.rq q).irq.vector

/-- The report writer hands the interrupt unit an entry write that completed without error (R156). -/
def countEntry (q : QueueId) (s : State) : State :=
  let m := (s.rq q).irq
  if !m.enable then s
  else
    let timer := if m.unsignalled = 0 ∧ m.delay ≠ 0 then some (s.time + ticksOf m.delay) else m.timer
    let s' := s.setIrq q { m with unsignalled := m.unsignalled + 1, timer := timer }
    if m.unsignalled + 1 = m.threshold then sendFor q s' else s'

/-- Every delay timer becomes idle (R163). -/
def idleDelayTimers (s : State) : State :=
  { s with rqs := Vector.ofFn fun q => { s.rqs[q] with irq := { s.rqs[q].irq with timer := none } } }

/-- The fatal message, on the vector of RQ0's context as it stands (R163). -/
def fatalMessage (s : State) : State := (idleDelayTimers s).sendMessage (s.rq 0).irq.vector

/-- The outstanding count of a queue (R135). -/
def outstanding (c : ReportQueue) : Nat := if c.lap then c.size else ringDist c.size c.write c.release

/-- The completed outstanding entries of a queue (R160): outstanding less the writes in flight, or 0. -/
def completedOutstanding (c : ReportQueue) : Nat := outstanding c - c.inFlight

/-- An accepted SET-RQ-INTERRUPT: the four settings are stored and the moderation state is adjusted as R160 states. -/
def applyInterruptSettings (q : QueueId) (enable : Bool) (vector : VectorId) (threshold : Nat) (delay : BitVec 16)
    (s : State) : State :=
  let old := (s.rq q).irq
  let m : Moderation := { old with enable := enable, vector := vector, threshold := threshold, delay := delay }
  match old.enable, enable with
  | true, false => s.setIrq q { m with unsignalled := 0, timer := none }
  | false, false => s.setIrq q m
  | false, true =>
    let s' := s.setIrq q m
    if completedOutstanding (s.rq q) = 0 then s' else sendFor q s'
  | true, true =>
    if m.unsignalled ≠ 0 ∧ threshold ≤ m.unsignalled then sendFor q (s.setIrq q m)
    else if delay = 0 then s.setIrq q { m with timer := none }
    else if m.timer = none ∧ m.unsignalled ≠ 0 then s.setIrq q { m with timer := some (s.time + ticksOf delay) }
    else s.setIrq q m

end Sys2Proof.Machine
end

