-- ==== Sys2Proof/Machine/Reports.lean ====
section
/-!
DEFINITION. The report writer (chapter 7): deciding a report, claiming a slot, losing a report, the entry that ends an overflow,
a release, and a queue that becomes ABSENT. What a posted ADMIN-DONE and a drained DELETE-RQ mean for the admin engine is in
AdminEngine.lean.
-/

namespace Sys2Proof.Machine

/-- The reserve of a queue: 1 for RQ0, 0 for the others (R133, R140). -/
def reserve (q : QueueId) : Nat := if q = 0 then 1 else 0

/-- The free slots of a queue (R135). -/
def freeSlots (c : ReportQueue) : Nat := c.size - outstanding c

/-- The queue has an overflow pending (R142). -/
def overflowPending (c : ReportQueue) : Bool := c.state = .active && c.counts ≠ OverflowCounts.zero

/-- What the report writer decides of a report other than ADMIN-DONE. -/
inductive Decision where
  | posted
  | counted
  | dropped
deriving DecidableEq, Repr

/-- The decision at a hand-over, from the queue's table entry and the device state as they stand (R137). -/
def State.decision (s : State) (q : QueueId) : Decision :=
  let c := s.rq q
  if s.port.dev = .faulted then .dropped
  else if c.state = .absent ∨ c.closing then .dropped
  else if c.state = .failed then .counted
  else if reserve q < freeSlots c ∧ overflowPending c = false then .posted
  else .counted

/-- The overflow class of a report and one more loss in it (R136, R141); ADMIN-DONE and OVERFLOW are never counted. -/
def OverflowCounts.lose (c : OverflowCounts) : ReportBody → OverflowCounts
  | .stepDone _ _ _ _ _ _ => { c with stepDone := satInc c.stepDone }
  | .capture _ _ _ _ _ _ => { c with capture := satInc c.capture }
  | .trackEvent _ _ _ _ _ => { c with trackEvent := satInc c.trackEvent }
  | .trip _ _ _ => { c with other := satInc c.other }
  | .postRefused _ => { c with other := satInc c.other }
  | .releaseRefused _ => { c with other := satInc c.other }
  | .rqFailed _ _ => { c with other := satInc c.other }
  | .adminDone _ _ _ _ => c
  | .overflow _ => c

/-- The address of a slot (R138): a 64-bit sum that wraps (log entry 29). -/
def slotAddr (c : ReportQueue) : Addr := c.base + 32 * BitVec.ofNat 64 c.write

/-- The table entry after its next slot is claimed (R135, R138). -/
def claimSlot (c : ReportQueue) : ReportQueue :=
  let w := (c.write + 1) % c.size
  { c with
    write := w
    pass := if w = 0 then !c.pass else c.pass
    seq := c.seq + 1
    lap := if w = c.release then true else c.lap
    inFlight := c.inFlight + 1 }

/-- Posting a report: the slot at the write index is claimed and the entry write is issued (R138). -/
def postReport (q : QueueId) (r : Report) (s : State) : State :=
  let c := s.rq q
  (s.setRq q (claimSlot c)).issueWrite
    { addr := slotAddr c, data := encodeEntry c.pass c.seq r, purpose := .entry q c.write c.seq }

/-- A block hands the report writer a report other than ADMIN-DONE (R137). -/
def handReport (q : QueueId) (r : Report) (s : State) : State :=
  match s.decision q with
  | .posted => postReport q r s
  | .counted => s.setRq q { s.rq q with counts := (s.rq q).counts.lose r.body }
  | .dropped => s

/-- A QUEUE-EVENT is handed to RQ0 (R153). -/
def queueEvent (source : Byte) (body : ReportBody) (s : State) : State :=
  handReport 0 { source := source, tag := 0, time := s.time, body := body } s

/-- The OVERFLOW entry of a queue, and its four counts back to 0 (R142, R154). -/
def postOverflow (q : QueueId) (s : State) : State :=
  let r : Report := { source := BitVec.ofNat 8 q.val, tag := 0, time := s.time, body := .overflow (s.rq q).counts }
  let s' := postReport q r s
  s'.setRq q { s'.rq q with counts := OverflowCounts.zero }

/-- The check of a release (R144): `r'` is the new release index. -/
def releaseOk (c : ReportQueue) (r' : Nat) : Bool :=
  c.state ≠ .absent && !c.closing && r' < c.size && ringDist c.size r' c.release ≤ outstanding c

/-- An accepted release that moves the release index, with the OVERFLOW that it calls for (R142, R144). -/
def moveRelease (q : QueueId) (r' : Nat) (s : State) : State :=
  let c := { s.rq q with release := r', lap := false }
  let s' := s.setRq q c
  if overflowPending c ∧ reserve q < freeSlots c then postOverflow q s' else s'

/-- A queue becomes ABSENT: every field of its entry and its moderation context return to their values after a reset (R151,
R161). -/
def makeAbsent (q : QueueId) (s : State) : State := s.setRq q ReportQueue.absent

end Sys2Proof.Machine
end

