-- ==== Sys2Proof/Machine/Lines.lean ====
section
/-!
DEFINITION. The line array (chapter 4) and what a change of mode does to a conditioner (R89, R114): the claims on drives, binding
and releasing lanes, parking at a reset. Acceptances and their consumers are in Inputs.lean.
-/

namespace Sys2Proof.Machine

/-- The safe-mode result of a line (R86). -/
def safeResult (m : SafeMode) (d : Drive) : Drive :=
  match m with
  | .hold => d
  | .float => .float
  | .low => .low
  | .high => .high

/-- The line is a lane of this track. -/
def Line.ownedBy (c : Line) (t : TrackId) : Bool :=
  match c.owner with
  | some o => o.track == t
  | none => false

/-! ## Conditioner -/

/-- No change pending and the window timer idle: a pending change is discarded without counting a glitch (R89, R103). -/
def Line.discardPending (c : Line) : Line := { c with pendingStart := none, windowTimer := none }

/-- The conditioner starts as the line leaves OFF: the raw level is sampled from the pin, the accepted level takes it without an
acceptance, and the edge times are absent (R89 step 1, and the table of R114 against its prose: log entry 26). -/
def Line.startConditioner (c : Line) (pin : Level) : Line :=
  { c.discardPending with raw := pin, accepted := pin, lastRise := none, lastFall := none }

/-- A pending change starts with the window timer set for its start plus the window (R101). -/
def Line.startPending (c : Line) (now : Time) : Line :=
  { c with pendingStart := some now, windowTimer := some (now + ticksOf c.window) }

/-! ## Claims (R85) -/

/-- A LEVEL takes effect: every lane whose mask bit is 1 is driven to its value bit (R7, R38). -/
def claimLevel (t : TrackId) (mask value : BitVec 16) (s : State) : State :=
  s.mapLines fun _ c =>
    match c.owner with
    | some o =>
      if o.track = t ∧ mask.getLsbD o.lane.val then { c with drive := driveOf (levelOf (value.getLsbD o.lane.val)) } else c
    | none => c

/-- Every lane of a track takes its safe-mode result (R86): safe entry (R129) and a stop with PARK (R69). -/
def claimSafe (t : TrackId) (s : State) : State :=
  s.mapLines fun _ c => if c.ownedBy t then { c with drive := safeResult c.safeMode c.drive } else c

/-- A line enters TRACK mode with its owner, lane and initial level (R62); a line that was OFF starts its conditioner. -/
def Line.bind (c : Line) (pin : Level) (o : LaneRef) (l : Level) : Line :=
  let c' := if c.mode = .off then c.startConditioner pin else c
  { c' with mode := .track, owner := some o, drive := driveOf l }

/-- BIND-TRACK's claim: the listed lines enter TRACK mode together (R62). -/
def claimBind (t : TrackId) (lanes : List LineId) (pattern : BitVec 16) (s : State) : State :=
  s.mapLines fun l c =>
    if l ∈ lanes then
      c.bind (s.pin l) { track := t, lane := Fin.ofNat 16 (lanes.idxOf l) } (levelOf (pattern.getLsbD (lanes.idxOf l)))
    else c

/-- A line enters OFF: released, without owner, its conditioner stopped (R63, R89 step 2, R114). -/
def Line.toOff (c : Line) : Line := { c.discardPending with mode := .off, owner := none, drive := .float }

/-- UNBIND-TRACK's claim: every lane of the track is released (R63). -/
def claimRelease (t : TrackId) (s : State) : State := s.mapLines fun _ c => if c.ownedBy t then c.toOff else c

/-- SET-STATIC's claim: every masked line takes its level bit (R91). -/
def claimStatic (mask levels : BitVec 48) (s : State) : State :=
  s.mapLines fun l c =>
    if mask.getLsbD l.val then
      { c with staticLevel := levelOf (levels.getLsbD l.val), drive := driveOf (levelOf (levels.getLsbD l.val)) }
    else c

/-- A line at a port or soft reset: parked if it was STATIC or TRACK, every other field at its default but mode and drive, and
the conditioner restarted from the pin unless the line is OFF (R94, R95, R96, R116). -/
def Line.afterReset (c : Line) (pin : Level) : Line :=
  match c.mode with
  | .off => Line.powerOn
  | .input => { Line.powerOn with mode := .input, raw := pin, accepted := pin }
  | .static => { Line.powerOn with mode := .parked, drive := safeResult c.safeMode c.drive, raw := pin, accepted := pin }
  | .track => { Line.powerOn with mode := .parked, drive := safeResult c.safeMode c.drive, raw := pin, accepted := pin }
  | .parked => { Line.powerOn with mode := .parked, drive := c.drive, raw := pin, accepted := pin }

/-- The claim of a reset: every line at once (R94 to R96). -/
def claimReset (s : State) : State := s.mapLines fun l c => c.afterReset (s.pin l)

/-! ## Setting a line -/

/-- The settings that an accepted SET-LINE stores in every mode (R87). -/
def Line.withSettings (c : Line) (safe : SafeMode) (window : BitVec 16) (capture : CaptureMode) (rq : QueueId)
    (interval : Bool) : Line :=
  { c with safeMode := safe, window := window, captureMode := capture, captureRq := rq, interval := interval }

/-- The drive, the mode and the static level that follow from the resulting mode (R88). -/
def Line.withMode (c : Line) (m : LineMode) (level : Level) : Line :=
  match m with
  | .off => { c with mode := .off, drive := .float }
  | .input => { c with mode := .input, drive := .float }
  | .static => { c with mode := .static, staticLevel := level, drive := driveOf level }
  | .track => c
  | .parked => c

/-- The accepted-level set: bit i for line i (R104). -/
def acceptedSet (s : State) : BitVec 48 := bitsOf 48 fun l => levelHigh (s.line l).accepted

end Sys2Proof.Machine
end

