-- ==== Sys2Proof/Machine/TrackCore.lean ====
section
/-!
DEFINITION. The shared operations of a track engine: the retire word (section 1.6), the epoch (R18), the reports of a track (section
2.11), entry into SAFE (section 6.4), a stop that takes effect and the abandoning of records (R69, R73).
-/

namespace Sys2Proof.Machine

/-- The state with a track context changed. -/
def State.modTrack (s : State) (t : TrackId) (f : Track → Track) : State := s.setTrack t (f (s.track t))

/-- The track is bound (R1). -/
def Track.bound (c : Track) : Bool := c.state ≠ .unbound

/-- DUE, INPUT-WAIT or EMPTY (00_scope.md, Running). -/
def Track.running (c : Track) : Bool := c.state = .due || c.state = .inputWait || c.state = .empty

/-- A state from which a read error, a fire or a device fault moves the track into SAFE: bound and not SAFE (R16, R123, R132). -/
def Track.canEnterSafe (c : Track) : Bool := c.state ≠ .unbound && c.state ≠ .safe

/-- The three timers idle (R27). -/
def Track.idleTimers (c : Track) : Track := { c with dueTimer := none, timeoutTimer := none, holdTimer := none }

/-- One more epoch: a read in flight becomes stale (R14, R18). -/
def Track.nextEpoch (c : Track) : Track :=
  { c with epoch := c.epoch + 1, read := c.read.map fun r => { r with stale := true } }

/-- The posted count of the sequence queue (R1). -/
def Track.posted (c : Track) : Nat := ringDist c.sqSize c.post c.retire

/-- The position after a position (R30). -/
def Track.after (c : Track) (pos : Nat) : Nat := (pos + 1) % c.sqSize

/-- The *next position*: the head of the prefetch list, or the fetch index when the list is empty (R53). -/
def Track.nextPos (c : Track) : Nat :=
  match c.prefetch with
  | e :: _ => e.pos
  | [] => c.fetch

/-- The current step's position, or with no current step the next position (R53, R78). -/
def Track.herePos (c : Track) : Nat :=
  match c.current with
  | some step => step.pos
  | none => c.nextPos

/-- The tag of the record at a ring position when the track holds it as current step or in its list, and 0 otherwise (R58). -/
def Track.heldTag (c : Track) (pos : Nat) : BitVec 16 :=
  match c.current.filter (·.pos == pos) with
  | some step => recTag step.record
  | none =>
    match c.prefetch.find? (·.pos == pos) with
    | some e => recTag e.record
    | none => 0

/-! ## The retire word -/

/-- A write of the present retire index to the retire word (R23). -/
def writeRetireWord (t : TrackId) (s : State) : State :=
  let c := s.track t
  (s.setTrack t { c with retireWrite := some { value := c.retire, earlier := false } }).issueWrite
    { addr := c.retireAddr, data := bytes32 (BitVec.ofNat 32 c.retire), purpose := .retireWord t }

/-- The retire index takes a value. When it changes, a retire-word write is issued unless the track has no retire word or a
retire-word write of it is in flight (R23, R25). -/
def setRetire (t : TrackId) (r : Nat) (s : State) : State :=
  let c := s.track t
  if c.retire = r then s
  else
    let s' := s.setTrack t { c with retire := r }
    if c.retireAddr ≠ 0 ∧ c.retireWrite = none then writeRetireWord t s' else s'

/-! ## Reports of a track -/

/-- A TRACK-EVENT is handed to the track's report queue (R58). -/
def trackEvent (t : TrackId) (event : TrackEventKind) (cause : Option SafeCause) (tag : BitVec 16) (pos abandoned : Nat)
    (s : State) : State :=
  let c := s.track t
  handReport c.rq { source := BitVec.ofNat 8 t.val, tag := tag, time := s.time,
                    body := .trackEvent event cause pos abandoned c.retire } s

/-- The STEP-DONE of a step that has retired (R56). -/
def stepDoneReport (t : TrackId) (c : Track) (step : CurrentStep) (outcome : StepOutcome) (now : Time) : Report where
  source := BitVec.ofNat 8 t.val
  tag := recTag step.record
  time := now
  body := .stepDone outcome (step.due.getD 0) step.pos step.pass c.retire c.unreported

/-- A STEP-DONE is handed to the report writer when the step's *notify* is 1, and the unreported count follows the decision (R56,
R57). -/
def stepDone (t : TrackId) (step : CurrentStep) (outcome : StepOutcome) (s : State) : State :=
  let c := s.track t
  if recNotify step.record then
    (handReport c.rq (stepDoneReport t c step outcome s.time) s).modTrack t fun c' =>
      { c' with unreported := if s.decision c.rq = .posted then 0 else satInc c'.unreported }
  else s

/-! ## Entry into SAFE (R128) -/

/-- Where a track that enters SAFE comes from, by its state at the entry (R128 step 2). -/
def Track.safeOrigin (c : Track) : SafeFrom :=
  if c.state = .stopped ∨ c.state = .armed then .notStarted else .started

/-- The track context after the entry: timers idle, stop request cleared, start time dropped, cause and origin recorded; all else
kept (R128 steps 1 to 3). -/
def Track.toSafe (c : Track) (cause : SafeCause) (origin : SafeFrom) : Track :=
  { c.idleTimers with stopReq := none, startTime := none, safeCause := some cause, safeFrom := some origin, state := .safe }

/-- Entry into SAFE: the context, the claim of the safe-mode results, and the TRACK-EVENT SAFE (R128 to R130). -/
def enterSafe (t : TrackId) (cause : SafeCause) (origin : SafeFrom) (s : State) : State :=
  let s' := claimSafe t (s.modTrack t fun c => c.toSafe cause origin)
  let c := s'.track t
  trackEvent t .safe (some cause) (c.heldTag c.herePos) c.herePos 0 s'

/-- Entry into SAFE by an event from outside the track's own chain, where the track's state allows it (R16, R24, R123, R132). -/
def forceSafe (t : TrackId) (cause : SafeCause) (s : State) : State :=
  if (s.track t).canEnterSafe then enterSafe t cause (s.track t).safeOrigin s else s

/-! ## Abandoning records (R69, R73) -/

/-- The track context after a stop or FLUSH has abandoned its records, but for the retire index: fetch at the post index, list,
current step, loop, stop request and start time dropped, timers idle, epoch incremented, STOPPED. -/
def Track.abandon (c : Track) : Track :=
  { c.idleTimers.nextEpoch with
    fetch := c.post
    prefetch := []
    current := none
    loop := none
    stopReq := none
    startTime := none
    state := .stopped }

/-- A stop takes effect (R69, R70): the records are abandoned, the retire index goes to the post index, the lanes hold or take
their safe-mode results, and STOPPED is reported. -/
def stopEffect (t : TrackId) (lines : StopLines) (s : State) : State :=
  let c := s.track t
  let s1 := setRetire t c.post (s.modTrack t Track.abandon)
  let s2 := if lines = .park then claimSafe t s1 else s1
  trackEvent t .stopped none (c.heldTag c.retire) c.retire c.posted s2

/-- RESUME-TRACK with FLUSH (R73): as a stop, but the lanes keep their drive, the safe cause becomes none, and RESUMED is
reported. -/
def flushEffect (t : TrackId) (s : State) : State :=
  let c := s.track t
  let s1 := setRetire t c.post (s.modTrack t fun c' => { c'.abandon with safeCause := none })
  trackEvent t .resumed none (c.heldTag c.retire) c.retire c.posted s1

end Sys2Proof.Machine
end

