-- ==== Sys2Proof/Machine/TrackRun.lean ====
section
/-!
DEFINITION. Track execution (chapter 2): taking the next record, due times and their judgment, each kind taking effect, waits,
loops, retiring and the boundary of a requested stop. One event of a track is a chain of records (R29); its recursion is over
the prefetch list.
-/

namespace Sys2Proof.Machine

/-- Where one record of a chain leaves the track: at rest in a state that must wait, or about to take its next record (R29, R30
step 6). -/
inductive Flow where
  | rest (s : State)
  | goOn (s : State)
deriving DecidableEq, Repr

/-! ## The states of a running track -/

/-- The track enters DUE with its due timer (R27, R33). -/
def Track.toDue (c : Track) (d : Time) : Track := { c.idleTimers with state := .due, dueTimer := some d }

/-- The track enters INPUT-WAIT with its timeout timer, unless the timeout is 0 (R27, R41). -/
def Track.toInputWait (c : Track) (now : Time) (timeout : BitVec 32) : Track :=
  { c.idleTimers with
    state := .inputWait
    timeoutTimer := if timeout = 0 then none else some (now + timeout.setWidth 64) }

/-- The track enters EMPTY with its hold timer, unless the hold limit is 0 (R27, R48). -/
def Track.toEmpty (c : Track) (now : Time) : Track :=
  { c.idleTimers with
    state := .empty
    current := none
    holdTimer := if c.holdLimit = 0 then none else some (now + ticksOf c.holdLimit) }

/-- The track takes its next record with an empty list (R28, R48). -/
def enterEmpty (t : TrackId) (s : State) : State := s.modTrack t fun c => c.toEmpty s.time

/-! ## Retiring a step (R30) -/

/-- The counter of an outcome moves (R30 step 3). -/
def Track.countOutcome (c : Track) (o : StepOutcome) : Track :=
  match o with
  | .skipped => { c with skipped := c.skipped + 1 }
  | .applied => { c with applied := c.applied + 1 }
  | .appliedLate => { c with applied := c.applied + 1 }
  | .waitMet => { c with applied := c.applied + 1 }
  | .waitTimeout => { c with applied := c.applied + 1 }

/-- A step other than END retires, after its effect on lanes and on the reference time (R30 steps 2 to 6): the retire index, the
counters, the STEP-DONE, and the boundary of a requested stop (R55). -/
def retireStep (t : TrackId) (step : CurrentStep) (o : StepOutcome) (s : State) : Flow :=
  let s1 := if (s.track t).loop = none then setRetire t ((s.track t).after step.pos) s else s
  let s2 := s1.modTrack t fun c => c.countOutcome o
  let s3 := stepDone t step o s2
  match (s3.track t).stopReq with
  | some lines => .rest (stopEffect t lines s3)
  | none => .goOn (s3.modTrack t fun c => { c with current := none })

/-- The reference time takes a value (R32). -/
def setRef (t : TrackId) (time : Time) (s : State) : State := s.modTrack t fun c => { c with refTime := time }

/-- An END takes effect (R40, R55): a loop closes, the retire index goes past the END, STEP-DONE, STOPPED, ENDED, and then a
requested stop. -/
def endEffect (t : TrackId) (step : CurrentStep) (o : StepOutcome) (s : State) : State :=
  let s1 := setRef t (step.due.getD 0) s
  let s2 := s1.modTrack t fun c => { c with loop := none }
  let s3 := setRetire t ((s2.track t).after step.pos) s2
  let s4 := s3.modTrack t fun c => c.countOutcome o
  let s5 := stepDone t step o s4
  let s6 := s5.modTrack t fun c => { c.idleTimers with current := none, state := .stopped }
  let s7 := trackEvent t .ended none (recTag step.record) step.pos 0 s6
  match (s7.track t).stopReq with
  | some lines => stopEffect t lines s7
  | none => s7

/-! ## Waits -/

/-- A HIGH or LOW condition that the accepted level already meets (R41). -/
def heldBy (cond : WaitCond) (level : Level) : Bool :=
  match cond with
  | .high => level = .high
  | .low => level = .low
  | .rise => false
  | .fall => false
  | .edge => false

/-- A condition that an acceptance to this level meets (R42). -/
def metBy (cond : WaitCond) (level : Level) : Bool :=
  match cond with
  | .high => level = .high
  | .low => level = .low
  | .rise => level = .high
  | .fall => level = .low
  | .edge => true

/-- The accepted level of the line a WAIT names; a checked WAIT always names one (R21). -/
def waitLevel (r : StepRecord) (s : State) : Option Level := (recLine r).map fun l => (s.line l).accepted

/-- A WAIT begins, or restarts at a CONTINUE (R41, R77): met at once, or the track enters INPUT-WAIT. -/
def beginWait (t : TrackId) (step : CurrentStep) (s : State) : Flow :=
  let begun := { step with waitStart := some s.time }
  let s1 := s.modTrack t fun c => { c with current := some begun }
  let met :=
    match recCond step.record, waitLevel step.record s with
    | some cond, some level => heldBy cond level
    | _, _ => false
  if met then retireStep t begun .waitMet (setRef t s.time s1)
  else .rest (s1.modTrack t fun c => c.toInputWait s.time (recTimeout step.record))

/-! ## Taking effect (section 2.5) -/

/-- The current timed step takes effect, on time or late (R34, R35, R38 to R41). -/
def takeEffect (t : TrackId) (step : CurrentStep) (late : Bool) (s : State) : Flow :=
  let o : StepOutcome := if late then .appliedLate else .applied
  match recKind step.record with
  | some .level =>
    retireStep t step o (setRef t (step.due.getD 0) (claimLevel t (recMask step.record) (recValue step.record) s))
  | some .mark => retireStep t step o (setRef t (step.due.getD 0) s)
  | some .finish => .rest (endEffect t step o s)
  | some .wait => beginWait t step s
  | some .loop => .rest s
  | some .next => .rest s
  | none => .rest s

/-- A late LEVEL, MARK or WAIT is skipped (R35). -/
def skipStep (t : TrackId) (step : CurrentStep) (s : State) : Flow := retireStep t step .skipped (setRef t (step.due.getD 0) s)

/-- What the late policy does with a late step (R35, R36). -/
def lateStep (t : TrackId) (step : CurrentStep) (s : State) : Flow :=
  match (s.track t).latePolicy with
  | .apply => takeEffect t step true s
  | .skip => if recKind step.record = some .finish then takeEffect t step true s else skipStep t step s
  | .fault => .rest (enterSafe t .late .started s)

/-- The judgment of a timed step against its due time and the late tolerance; the comparison does not wrap (R33). -/
def judge (t : TrackId) (step : CurrentStep) (s : State) : Flow :=
  let d := step.due.getD 0
  if s.time < d then .rest (s.modTrack t fun c => c.toDue d)
  else if s.time.toNat ≤ d.toNat + (s.track t).tolerance.toNat then takeEffect t step false s
  else lateStep t step (s.modTrack t fun c => { c with late := c.late + 1 })

/-- The due time of a record that becomes current (R31). -/
def dueTime (r : StepRecord) (refTime now : Time) : Time :=
  match recDueMode r with
  | some .abs => recDue r
  | some .rel => refTime + recDue r
  | some .now => now
  | none => now

/-- The due time of a current step at a CONTINUE (R76). -/
def resumedDue (r : StepRecord) (rebase : Bool) (old now : Time) : Time :=
  match recDueMode r, rebase with
  | some .rel, true => now + recDue r
  | some .now, true => now
  | _, _ => old

/-- The due time of the current step is fixed and the step is judged (R31, R33, R76). -/
def fixAndJudge (t : TrackId) (step : CurrentStep) (d : Time) (s : State) : Flow :=
  let step' := { step with due := some d }
  judge t step' (s.modTrack t fun c => { c with current := some step' })

/-! ## Loops (section 2.7) -/

/-- A valid LOOP opens its loop context (R45). -/
def Track.openLoop (c : Track) (e : Fetched) : Track :=
  { c with loop := some { start := c.after e.pos, pos := e.pos, remaining := recCount e.record, pass := 1 }, current := none }

/-- A valid NEXT with more than one pass remaining jumps (R46). -/
def Track.jump (c : Track) (l : LoopCtx) : Track :=
  { c.nextEpoch with
    loop := some { l with remaining := l.remaining - 1, pass := l.pass + 1 }
    prefetch := []
    fetch := l.start
    current := none }

/-- A valid NEXT with one pass remaining closes the loop (R47). -/
def closeLoop (t : TrackId) (e : Fetched) (s : State) : State :=
  setRetire t ((s.track t).after e.pos) (s.modTrack t fun c => { c with loop := none, current := none })

/-! ## The chain -/

/-- The head of the list leaves it and becomes the current step, with the pass of the active loop or 0 (R28). -/
def Track.takeHead (c : Track) (e : Fetched) (rest : List Fetched) : Track :=
  { c with
    prefetch := rest
    current := some { record := e.record, pos := e.pos, due := none, waitStart := none, pass := (c.loop.map (·.pass)).getD 0 } }

/-- A checked timed record gets its due time and is judged (R31, R33). -/
def startStep (t : TrackId) (s : State) : Flow :=
  match (s.track t).current with
  | some step => fixAndJudge t step (dueTime step.record (s.track t).refTime s.time) s
  | none => .rest s

/-- The track takes its next record, and the records after it as far as the event carries it (R28, R29). The list given is the
track's prefetch list. -/
def takeChain (t : TrackId) : List Fetched → State → State
  | [], s => enterEmpty t s
  | e :: rest, s =>
    let s1 := s.modTrack t fun c => c.takeHead e rest
    match checkRecord (s.track t).lanes.length (s.track t).loop.isSome e.record with
    | some sub => enterSafe t (.badStep sub) .started s1
    | none =>
      match recKind e.record, (s.track t).loop with
      | some .loop, _ => takeChain t rest (s1.modTrack t fun c => c.openLoop e)
      | some .next, some l =>
        if 1 < l.remaining then enterEmpty t (s1.modTrack t fun c => c.jump l) else takeChain t rest (closeLoop t e s1)
      | _, _ =>
        match startStep t s1 with
        | .rest s2 => s2
        | .goOn s2 => takeChain t rest s2

/-- The track takes its next record (R28). -/
def takeNext (t : TrackId) (s : State) : State := takeChain t (s.track t).prefetch s

/-- What follows a piece of an event: nothing, or taking the next record (R30 step 6). -/
def carryOn (t : TrackId) : Flow → State
  | .rest s => s
  | .goOn s => takeNext t s

/-! ## The events of a running track -/

/-- The start time of an ARMED track is reached: reference time, STARTED, and the first record (R66). STARTED carries the retire index
as it stands at the hand-over, before the first record is taken (log entry 25). -/
def startTrack (t : TrackId) (start : Time) (s : State) : State :=
  let s1 := s.modTrack t fun c => { c with refTime := start, startTime := none }
  let c := s1.track t
  takeNext t (trackEvent t .started none (c.heldTag c.nextPos) c.nextPos 0 s1)

/-- The due timer expires: the current step takes effect and is not flagged late (R34). -/
def dueExpired (t : TrackId) (step : CurrentStep) (s : State) : State :=
  carryOn t (takeEffect t step false (s.modTrack t Track.idleTimers))

/-- The timeout timer expires (R43). -/
def timeoutExpired (t : TrackId) (step : CurrentStep) (s : State) : State :=
  match recOnTimeout step.record with
  | some .fault => enterSafe t .waitTimeout .started s
  | _ =>
    let s1 := setRef t (step.waitStart.getD 0 + (recTimeout step.record).setWidth 64) (s.modTrack t Track.idleTimers)
    carryOn t (retireStep t step .waitTimeout s1)

/-- An acceptance on the line reaches a track (R42): it ends the wait when the track is in INPUT-WAIT on a WAIT of that line whose
condition it meets. -/
def waitAcceptance (t : TrackId) (l : LineId) (level : Level) (s : State) : State :=
  match (s.track t).state, (s.track t).current with
  | .inputWait, some step =>
    match recLine step.record, recCond step.record with
    | some l', some cond =>
      if l' = l ∧ metBy cond level then
        carryOn t (retireStep t step .waitMet (setRef t s.time (s.modTrack t Track.idleTimers)))
      else s
    | _, _ => s
  | _, _ => s

end Sys2Proof.Machine
end

