-- ==== Sys2Proof/Machine/Trips.lean ====
section
/-!
DEFINITION. The trip units (sections 6.1 to 6.3): a fire, judging an acceptance, and the effects of SET-TRIP, CLEAR-TRIP and
FIRE-TRIP. Here too is what an admin command answers.
-/

namespace Sys2Proof.Machine

/-- What the admin engine does after the effects of a taken command (R171): it answers with a status and perhaps a result, or
writes a result buffer, or waits for a queue's writes to drain. -/
inductive Reply where
  | answer (status : Status) (result : Option AdminResult)
  | write (addr : Addr) (data : List Byte)
  | drain (q : QueueId) (result : AdminResult)
deriving DecidableEq, Repr

/-- A refused command: its status and the state unchanged (R170). -/
def refuse (status : Status) (s : State) : Reply × State := (.answer status none, s)

/-- An accepted command that is answered OK at its taking. -/
def accept (s : State) : Reply × State := (.answer .ok none, s)

/-- A FIRED trip unit names the track in its mask (R64, R72). -/
def tripHolds (s : State) (t : TrackId) : Bool :=
  (List.finRange 2).any fun u => (s.trip u).state = .fired && (s.trip u).mask.getLsbD t.val

/-- The track stands in SAFE by a fire of this very device time, and the unit is still FIRED and names it: the fire that a
START-TRACKS naming the track races with (R127; log entry 27). -/
def racedByFire (s : State) (t : TrackId) : Bool :=
  (s.track t).state = .safe && (List.finRange 2).any fun u =>
    (s.trip u).state = .fired && (s.trip u).mask.getLsbD t.val
      && (s.trip u).lastFire.any fun r => r.time = s.time && r.moved.getLsbD t.val

/-- The tracks of a mask that a fire moves into SAFE (R123). -/
def movable (s : State) (mask : BitVec 8) : List TrackId :=
  (List.finRange 8).filter fun t => mask.getLsbD t.val && (s.track t).canEnterSafe

/-- The level a level condition names; an edge condition names none (R119, R125). -/
def TripCond.namedLevel : TripCond → Option Level
  | .rise => none
  | .fall => none
  | .high => some .high
  | .low => some .low

/-- The unit's level condition holds at its source line, read from the accepted-level set (R119, R125). -/
def levelHolds (s : State) (u : UnitId) : Bool :=
  (s.trip u).condition.namedLevel = some (s.line (s.trip u).source).accepted

/-- A trip unit fires (R122): FIRED, every named track takes the fire in a free order, the last fire is recorded, and the TRIP
report is handed to RQ0 (R124). -/
def fire (u : UnitId) (cause : FireCause) (edge : Option Time) (tag : BitVec 16) (s : State) : State :=
  let moved := movable s (s.trip u).mask
  let mask := bitsOf 8 fun t => moved.contains t
  let s1 := s.setTrip u { s.trip u with state := .fired, lastFire := some { cause := cause, time := s.time, moved := mask } }
  let s2 := (s.freeOrder moved).foldl (fun s' t => forceSafe t (.trip u) s') (s1.afterOrder moved)
  handReport 0 { source := BitVec.ofNat 8 u.val, tag := tag, time := s.time, body := .trip cause mask edge } s2

/-- An acceptance to this level meets the condition (R120). -/
def TripCond.metBy (c : TripCond) (level : Level) : Bool :=
  match c with
  | .rise => level = .high
  | .fall => level = .low
  | .high => level = .high
  | .low => level = .low

/-- The cause of a fire by an acceptance (R120). -/
def TripCond.fireCause : TripCond → FireCause
  | .rise => .edge
  | .fall => .edge
  | .high => .level
  | .low => .level

/-- An acceptance on a line reaches a trip unit (R120): an ARMED unit of that source line whose condition it meets fires. -/
def tripAcceptance (u : UnitId) (l : LineId) (level : Level) (edge : Time) (s : State) : State :=
  let c := s.trip u
  if c.state = .armed ∧ c.source = l ∧ c.condition.metBy level then fire u c.condition.fireCause (some edge) 0 s else s

/-- SET-TRIP (R118, R119). -/
def setTripEffect (p : SetTripParams) (s : State) : Reply × State :=
  match numberBelow 2 p.unit with
  | none => refuse .badTarget s
  | some u =>
    match numberBelow 48 p.source, tripCond? p.condition, enable? p.enable with
    | some source, some condition, some enable =>
      if (s.trip u).state = .fired then refuse .busy s
      else
        let s1 := s.setTrip u { s.trip u with
          source := source, condition := condition, mask := p.mask, state := if enable then .armed else .disarmed }
        if enable ∧ levelHolds s1 u then accept (fire u .level none 0 s1) else accept s1
    | _, _, _ => refuse .badParam s

/-- CLEAR-TRIP (R125). -/
def clearTripEffect (unit : Byte) (s : State) : Reply × State :=
  match numberBelow 2 unit with
  | none => refuse .badTarget s
  | some u =>
    if (s.trip u).state ≠ .fired then refuse .state s
    else if levelHolds s u then refuse .tripActive s
    else (.answer .ok ((s.trip u).lastFire.map .fire), s.setTrip u { s.trip u with state := .armed })

/-- FIRE-TRIP (R121); the tag of its TRIP report is the command id (R124). -/
def fireTripEffect (id : BitVec 16) (unit : Byte) (s : State) : Reply × State :=
  match numberBelow 2 unit with
  | none => refuse .badTarget s
  | some u => if (s.trip u).state = .fired then refuse .state s else accept (fire u .host none id s)

end Sys2Proof.Machine
end

