-- ==== Sys2Proof/Machine/Inputs.lean ====
section
/-!
DEFINITION. The input conditioner (chapter 5): raw changes, window expiries, acceptances and their consumers, captures; and the
effects of SET-LINE, SET-STATIC and SNAPSHOT (chapter 4).
-/

namespace Sys2Proof.Machine

/-! ## Capture (sections 5.5, 5.6) -/

/-- An acceptance to this level matches the capture mode (R108). -/
def CaptureMode.wants (m : CaptureMode) (level : Level) : Bool :=
  match m with
  | .none => false
  | .rise => level = .high
  | .fall => level = .low
  | .both => true

/-- A span between two edge times, carried as at most 4 294 967 295 ticks (R110). -/
def span (e : Time) (from' : Time) : BitVec 32 :=
  if (e - from').toNat ≤ 4294967295 then (e - from').setWidth 32 else BitVec.allOnes 32

/-- The last edge time of the direction that leads to this level (R107). -/
def Line.lastEdge (c : Line) : Level → Option Time
  | .high => c.lastRise
  | .low => c.lastFall

/-- The other level. -/
def otherLevel : Level → Level
  | .high => .low
  | .low => .high

/-- The CAPTURE of an acceptance, formed from the edge times before their update (R109, R110). -/
def captureReport (l : LineId) (level : Level) (edge : Time) (delay : BitVec 16) (s : State) : Report :=
  let c := s.line l
  { source := BitVec.ofNat 8 l.val
    tag := 0
    time := s.time
    body := .capture c.missed level (acceptedSet s) delay
      (if c.interval then (c.lastEdge level).map (span edge) else none)
      (if c.interval then (c.lastEdge (otherLevel level)).map (span edge) else none) }

/-- The last edge time of the acceptance's direction takes its edge time (R107). -/
def Line.recordEdge (c : Line) (level : Level) (edge : Time) : Line :=
  match level with
  | .high => { c with lastRise := some edge }
  | .low => { c with lastFall := some edge }

/-- The capture stage takes an acceptance (R107, R108, R111). -/
def captureAcceptance (l : LineId) (level : Level) (edge : Time) (delay : BitVec 16) (s : State) : State :=
  let c := s.line l
  if c.captureMode = .none then s
  else
    let s1 :=
      if c.captureMode.wants level then
        (handReport c.captureRq (captureReport l level edge delay s) s).setLine l
          { c with missed := if s.decision c.captureRq = .posted then 0 else satInc c.missed }
      else s
    s1.setLine l ((s1.line l).recordEdge level edge)

/-! ## Acceptances (section 5.4) -/

/-- A consumer of an acceptance record (R105). -/
inductive Consumer where
  | capture
  | trip (u : UnitId)
  | track (t : TrackId)
deriving DecidableEq, Repr

/-- The consumers that have something to do with an acceptance on this line, as the state stands when it is handed out: the capture
stage when its mode is not NONE, the ARMED units of the line, and the tracks in INPUT-WAIT on a WAIT of the line. -/
def consumers (l : LineId) (s : State) : List Consumer :=
  (if (s.line l).captureMode = .none then [] else [.capture])
    ++ ((List.finRange 2).filter fun u => (s.trip u).state = .armed && (s.trip u).source = l).map .trip
    ++ ((List.finRange 8).filter fun t =>
          (s.track t).state = .inputWait && ((s.track t).current.any fun step => recLine step.record = some l)).map .track

/-- One consumer takes the acceptance record (R105). -/
def consume (l : LineId) (level : Level) (edge : Time) (delay : BitVec 16) (s : State) : Consumer → State
  | .capture => captureAcceptance l level edge delay s
  | .trip u => tripAcceptance u l level edge s
  | .track t => waitAcceptance t l level s

/-- An acceptance (R105): the accepted level is set, and the record is handed to every consumer; the hand-out puts no order on
them. -/
def acceptance (l : LineId) (level : Level) (edge : Time) (delay : BitVec 16) (s : State) : State :=
  let s1 := s.setLine l { s.line l with accepted := level }
  let cs := consumers l s1
  (s1.freeOrder cs).foldl (consume l level edge delay) (s1.afterOrder cs)

/-! ## Raw changes and window expiries (section 5.3) -/

/-- The glitch count after one more glitch, with the pending change discarded (R101, R113). -/
def Line.glitched (c : Line) : Line := { c.discardPending with glitch := satInc c.glitch }

/-- A raw change (R99 to R101): the raw level takes the new level; with window 0 it is accepted; otherwise a pending change starts
or is discarded as a glitch. -/
def rawChanged (l : LineId) (level : Level) (s : State) : State :=
  let c := { s.line l with raw := level }
  if c.window = 0 then acceptance l level s.time 0 (s.setLine l c.discardPending)
  else if c.pendingStart = none then s.setLine l (c.startPending s.time)
  else s.setLine l c.glitched

/-- The level may come from a claim of this same tick: the drive has changed since the tick began, the pin did not show the level
then, and the driver now gives the pin that level or has released it. The sampler sees such a change a tick later at the earliest
(R99; log entry 24). -/
def ownReadback (l : LineId) (level : Level) (s : State) : Bool :=
  (s.line l).drive ≠ s.sampler.drives[l] && s.sampler.pins[l] ≠ level
    && ((s.line l).drive = .float || (s.line l).drive = driveOf level)

/-- The sampler takes its raw change of a line for this tick: raw changes of one line come at distinct device times (R99). -/
def markChanged (l : LineId) (s : State) : State :=
  { s with sampler := { s.sampler with changed := s.sampler.changed.set l true } }

/-- A pin shows a level (R99): a raw change when the conditioner runs, the level differs from the raw level, the line has had no raw
change in this tick and the level is not the readback of a claim of this tick. What this tick's sample does not take, the next
tick's does, if the pin still shows it (`sampledChanges`). -/
def samplePin (l : LineId) (level : Level) (s : State) : State :=
  let s1 := { s with pins := s.pins.set l level }
  if (s.line l).mode = .off ∨ (s.line l).raw = level ∨ s.sampler.changed[l] ∨ ownReadback l level s then s1
  else rawChanged l level (markChanged l s1)

/-- The window timer of a PENDING line expires: the raw level is accepted, the edge time being the pending start (R102). -/
def windowExpired (l : LineId) (start : Time) (s : State) : State :=
  let c := s.line l
  acceptance l c.raw start c.window (s.setLine l c.discardPending)

/-! ## SET-LINE (sections 4.3, 4.4) -/

/-- A settle window that has changed on a running conditioner (R89 step 3): a pending change is discarded without a glitch, and the
new window applies from the taking. -/
def applyWindow (l : LineId) (s : State) : State :=
  let c := (s.line l).discardPending
  if c.raw = c.accepted then s.setLine l c
  else if c.window = 0 then acceptance l c.raw s.time 0 (s.setLine l c)
  else s.setLine l (c.startPending s.time)

/-- The edge times become absent (R89 step 4). -/
def Line.forgetEdges (c : Line) : Line := { c with lastRise := none, lastFall := none }

/-- What an accepted SET-LINE does in its event (R87 to R89), for a line, a resulting mode, a static level and the settings. -/
def applySetLine (l : LineId) (m : LineMode) (level : Level) (safe : SafeMode) (window : BitVec 16) (capture : CaptureMode)
    (rq : QueueId) (interval : Bool) (s : State) : State :=
  let old := s.line l
  let c1 := (old.withSettings safe window capture rq interval).withMode m level
  let c2 :=
    if old.mode = .off ∧ m ≠ .off then c1.startConditioner (s.pin l)
    else if old.mode ≠ .off ∧ m = .off then c1.discardPending
    else c1
  let s2 := s.setLine l c2
  let s3 := if m ≠ .off ∧ old.window ≠ window then applyWindow l s2 else s2
  if old.captureMode ≠ capture ∨ old.interval ≠ interval then s3.setLine l (s3.line l).forgetEdges else s3

/-- The mode that results from SET-LINE's choice on a line (R88). -/
def ModeChoice.resulting (m : ModeChoice) (old : LineMode) : LineMode :=
  match m with
  | .keep => old
  | .give new => new

/-- SET-LINE (R87). -/
def setLineEffect (p : SetLineParams) (s : State) : Reply × State :=
  match numberBelow 48 p.line with
  | none => refuse .badTarget s
  | some l =>
    match setLineMode? p.mode, safeMode? p.safeMode, captureMode? p.captureMode, numberBelow 8 p.captureRq with
    | some choice, some safe, some capture, some rq =>
      let m := choice.resulting (s.line l).mode
      if m = .static ∧ level? p.staticLevel = none then refuse .badParam s
      else if (s.line l).mode = .track ∧ choice ≠ .keep then refuse .lineBusy s
      else if capture ≠ .none ∧ (s.rq rq).state ≠ .active then refuse .noQueue s
      else accept (applySetLine l m ((level? p.staticLevel).getD .low) safe p.window capture rq p.interval s)
    | _, _, _, _ => refuse .badParam s

/-- SET-STATIC (R91). -/
def setStaticEffect (mask levels : BitVec 48) (s : State) : Reply × State :=
  if (List.finRange 48).any fun l => mask.getLsbD l.val && (s.line l).mode ≠ .static then refuse .state s
  else accept (claimStatic mask levels s)

/-- A buffer address is 8-byte aligned (R172). -/
def bufferAligned (buffer : Addr) : Bool := buffer.toNat % 8 == 0

/-- SNAPSHOT (R92): the record is fixed at the taking, and the glitch counts are cleared after the copy when asked. -/
def snapshotEffect (buffer : Addr) (clearGlitch : Bool) (s : State) : Reply × State :=
  if !bufferAligned buffer then refuse .badParam s
  else (.write buffer (snapshotRecord s), if clearGlitch then s.mapLines fun _ c => { c with glitch := 0 } else s)

end Sys2Proof.Machine
end

