-- ==== Sys2Proof/Machine/TrackControl.lean ====
section
/-!
DEFINITION. The effects of the seven track commands (chapter 3), each with its checks in the order of its rule.
-/

namespace Sys2Proof.Machine

/-! ## Binding (section 3.2) -/

/-- The lines listed by the first `n` bytes of a lane list, when every one is below 48 (R60, R194). -/
def laneLines (n : Nat) (lanes : Vector Byte 16) : Option (List LineId) := (lanes.toList.take n).mapM (numberBelow 48)

/-- The track context after BIND-TRACK (R61). A read still in flight becomes stale, and a retire-word write still in flight is of an
earlier binding (R14, R25). -/
def boundTrack (c : Track) (p : BindParams) (lanes : List LineId) (rq : QueueId) (policy : LatePolicy) : Track :=
  { Track.powerOn with
    state := .stopped
    pausedFrom := some .due
    sqBase := p.sqBase
    sqSize := p.sqSize.toNat
    read := c.read.map fun r => { r with stale := true }
    retireAddr := p.retireAddr
    retireWrite := c.retireWrite.map fun w => { w with earlier := true }
    lanes := lanes
    rq := rq
    latePolicy := policy
    tolerance := p.tolerance
    holdLimit := p.holdLimit }

/-- The parameters of BIND-TRACK that the third check reads, when they are in range (R60). -/
def bindOperands (p : BindParams) : Option (List LineId × QueueId × LatePolicy) :=
  if p.laneCount.toNat = 0 ∨ 16 < p.laneCount.toNat then none
  else
    match laneLines p.laneCount.toNat p.lanes, numberBelow 8 p.rq, latePolicy? p.latePolicy with
    | some lanes, some rq, some policy =>
      if lanes.Nodup ∧ ringSizeOk 4 4096 p.sqSize.toNat ∧ p.sqBase.toNat % 32 = 0 ∧ p.retireAddr.toNat % 4 = 0 then
        some (lanes, rq, policy)
      else none
    | _, _, _ => none

/-- BIND-TRACK (R60 to R62). -/
def bindTrackEffect (p : BindParams) (s : State) : Reply × State :=
  match numberBelow 8 p.track with
  | none => refuse .badTarget s
  | some t =>
    if (s.track t).state ≠ .unbound then refuse .state s
    else
      match bindOperands p with
      | none => refuse .badParam s
      | some (lanes, rq, policy) =>
        if (s.rq rq).state ≠ .active then refuse .noQueue s
        else if lanes.any fun l => (s.line l).mode = .track then refuse .lineBusy s
        else accept (claimBind t lanes p.pattern (s.modTrack t fun c => boundTrack c p lanes rq policy))

/-- The track context after UNBIND-TRACK (R63): what is not named here keeps its last value. -/
def Track.unbind (c : Track) : Track :=
  { c.idleTimers.nextEpoch with
    prefetch := []
    current := none
    loop := none
    stopReq := none
    safeCause := none
    retireWrite := c.retireWrite.map fun w => { w with earlier := true }
    state := .unbound }

/-- UNBIND-TRACK (R63). -/
def unbindTrackEffect (track : Byte) (s : State) : Reply × State :=
  match numberBelow 8 track with
  | none => refuse .badTarget s
  | some t =>
    if (s.track t).state = .stopped ∨ (s.track t).state = .safe then accept (claimRelease t (s.modTrack t Track.unbind))
    else refuse .state s

/-! ## Starting (section 3.3) -/

/-- The tracks a mask names. -/
def maskTracks (mask : Byte) : List TrackId := (List.finRange 8).filter fun t => mask.getLsbD t.val

/-- A track becomes ARMED with a start time (R65). -/
def Track.arm (c : Track) (start : Time) : Track := { c with state := .armed, startTime := some start, stopReq := none }

/-- The track passes the second check of START-TRACKS (R64): it is STOPPED, or it is one that a fire of the same device time has
just moved, for R127 answers that race with the status of the third check (log entry 27). -/
def startable (s : State) (t : TrackId) : Bool := (s.track t).state = .stopped || racedByFire s t

/-- START-TRACKS (R64 to R66): with NOW, or an AT time equal to the taking, every track starts in the same event, one after another
in a free order. The checks stand in R64's order, so a track that an earlier fire has moved into SAFE is refused with STATE. A
start that races with a fire, taken first at the same device time, is refused with TRIP-ACTIVE as R127 says (`startable`; log
entry 27). -/
def startTracksEffect (mask mode : Byte) (start : Time) (s : State) : Reply × State :=
  match startAt? mode with
  | none => refuse .badParam s
  | some isAt =>
    let ts := maskTracks mask
    if mask = 0 then refuse .badParam s
    else if ts.any fun t => !startable s t then refuse .state s
    else if ts.any fun t => tripHolds s t then refuse .tripActive s
    else if isAt ∧ start < s.time then refuse .badTime s
    else
      let moment := if isAt then start else s.time
      let s1 := ts.foldl (fun s' t => s'.modTrack t fun c => c.arm moment) s
      if moment = s.time then
        accept ((s1.freeOrder ts).foldl (fun s' t => startTrack t moment s') (s1.afterOrder ts))
      else accept s1

/-! ## Stopping and pausing (sections 3.4, 3.5) -/

/-- STOP-TRACK (R68). -/
def stopTrackEffect (track timing lines : Byte) (s : State) : Reply × State :=
  match numberBelow 8 track with
  | none => refuse .badTarget s
  | some t =>
    let c := s.track t
    if c.state = .unbound ∨ c.state = .safe then refuse .state s
    else
      match stopAtBoundary? timing, stopLines? lines with
      | some boundary, some choice =>
        if boundary ∧ (c.running ∨ c.state = .paused) then
          accept (s.modTrack t fun c' => { c' with stopReq := some choice })
        else accept (stopEffect t choice s)
      | _, _ => refuse .badParam s

/-- The running state a pause records (R52). -/
def TrackState.paused? : TrackState → Option PausedFrom
  | .due => some .due
  | .inputWait => some .inputWait
  | .empty => some .empty
  | .unbound => none
  | .stopped => none
  | .armed => none
  | .paused => none
  | .safe => none

/-- PAUSE-TRACK (R71). -/
def pauseTrackEffect (track : Byte) (s : State) : Reply × State :=
  match numberBelow 8 track with
  | none => refuse .badTarget s
  | some t =>
    match (s.track t).state.paused? with
    | none => refuse .state s
    | some p => accept (s.modTrack t fun c => { c.idleTimers with state := .paused, pausedFrom := some p })

/-! ## Resuming (section 3.6) -/

/-- RESUMED is handed for a CONTINUE, naming the current step's position or the next position (R78). It carries the retire index
as it stands at the hand-over, before any step that the same event goes on to retire (log entry 25). -/
def reportResumed (t : TrackId) (s : State) : State :=
  let c := s.track t
  trackEvent t .resumed none (c.heldTag c.herePos) c.herePos 0 s

/-- The current timed step, whose effect has not begun, gets its due time as the choice says and is judged again (R76). -/
def rejudge (t : TrackId) (rebase : Bool) (step : CurrentStep) (s : State) : State :=
  carryOn t (fixAndJudge t step (resumedDue step.record rebase (step.due.getD 0) s.time) s)

/-- The current WAIT restarts (R77). -/
def restartWait (t : TrackId) (step : CurrentStep) (s : State) : State := carryOn t (beginWait t step s)

/-- A CONTINUE on a PAUSED track takes the flow up as *paused-from* says (R74). -/
def continuePaused (t : TrackId) (rebase : Bool) (s : State) : State :=
  match (s.track t).pausedFrom, (s.track t).current with
  | some .due, some step => rejudge t rebase step s
  | some .inputWait, some step => restartWait t step s
  | _, _ => takeNext t s

/-- A CONTINUE on a SAFE track that had started takes the flow up as its current step says (R75). -/
def continueSafe (t : TrackId) (rebase : Bool) (s : State) : State :=
  match (s.track t).current with
  | none => takeNext t s
  | some step => if step.waitStart.isSome then restartWait t step s else rejudge t rebase step s

/-- RESUME-TRACK with CONTINUE (R74, R75): RESUMED is handed first (R78); a SAFE track that had not started becomes STOPPED. -/
def continueTrack (t : TrackId) (rebase : Bool) (s : State) : State :=
  let c := s.track t
  if c.state = .safe then
    let s1 := reportResumed t (s.modTrack t fun c' => { c' with safeCause := none })
    if c.safeFrom = some .notStarted then s1.modTrack t fun c' => { c' with state := .stopped }
    else continueSafe t rebase s1
  else continuePaused t rebase (reportResumed t s)

/-- The safe cause is BAD-STEP (R72). -/
def SafeCause.isBadStep : SafeCause → Bool
  | .badStep _ => true
  | .trip _ | .starved | .late | .waitTimeout | .hostMemory | .deviceFault => false

/-- RESUME-TRACK (R72). -/
def resumeTrackEffect (track action choice : Byte) (s : State) : Reply × State :=
  match numberBelow 8 track with
  | none => refuse .badTarget s
  | some t =>
    let c := s.track t
    if c.state ≠ .paused ∧ c.state ≠ .safe then refuse .state s
    else
      match resumeFlush? action, resumeRebase? choice with
      | some true, _ => accept (flushEffect t s)
      | some false, some rebase =>
        if c.state = .safe ∧ tripHolds s t then refuse .tripActive s
        else if c.state = .safe ∧ (c.safeCause.any SafeCause.isBadStep) then refuse .stepInvalid s
        else accept (continueTrack t rebase s)
      | _, _ => refuse .badParam s

/-! ## Reading a track's status (section 3.7) -/

/-- TRACK-STATUS (R79). -/
def trackStatusEffect (track : Byte) (buffer : Addr) (s : State) : Reply × State :=
  match numberBelow 8 track with
  | none => refuse .badTarget s
  | some t =>
    if !bufferAligned buffer then refuse .badParam s
    else (.write buffer (trackStatusRecord (s.track t)), s)

end Sys2Proof.Machine
end

