-- ==== Sys2Proof/Machine/QueueControl.lean ====
section
/-!
DEFINITION. The effects of CREATE-RQ, DELETE-RQ and SET-RQ-INTERRUPT (sections 7.7, 8.3) and of IDENTIFY (section 9.5).
-/

namespace Sys2Proof.Machine

/-- A queue number that CREATE-RQ and DELETE-RQ may name: 1 to 7 (R149, R150). -/
def creatable (b : Byte) : Option QueueId := if b = 0 then none else numberBelow 8 b

/-- The table entry after CREATE-RQ (R149, R155). -/
def createdQueue (base : Addr) (size : Nat) (enable : Bool) (vector : VectorId) (threshold : Nat) (delay : BitVec 16) :
    ReportQueue :=
  { ReportQueue.absent with
    state := .active
    base := base
    size := size
    pass := true
    irq := { enable := enable, vector := vector, threshold := threshold, delay := delay, unsignalled := 0, timer := none } }

/-- CREATE-RQ (R149). -/
def createRqEffect (p : CreateRqParams) (s : State) : Reply × State :=
  match creatable p.queue with
  | none => refuse .badTarget s
  | some q =>
    if (s.rq q).state ≠ .absent then refuse .state s
    else
      match numberBelow 8 p.vector, enable? p.enable with
      | some vector, some enable =>
        if ringSizeOk 16 4096 p.size.toNat ∧ p.base.toNat % 32 = 0 ∧ p.threshold ≠ 0 then
          accept (s.setRq q (createdQueue p.base p.size.toNat enable vector p.threshold.toNat p.delay))
        else refuse .badParam s
      | _, _ => refuse .badParam s

/-- A bound track or a capturing line names the queue (R150). -/
def queueInUse (s : State) (q : QueueId) : Bool :=
  ((List.finRange 8).any fun t => (s.track t).bound && (s.track t).rq = q)
    || (List.finRange 48).any fun l => (s.line l).captureMode ≠ .none && (s.line l).captureRq = q

/-- DELETE-RQ (R150, R151): the result is fixed at the taking; the queue becomes ABSENT at once or when its writes have drained. -/
def deleteRqEffect (queue : Byte) (s : State) : Reply × State :=
  match creatable queue with
  | none => refuse .badTarget s
  | some q =>
    let c := s.rq q
    if c.state = .absent then refuse .state s
    else if queueInUse s q then refuse .queueInUse s
    else
      let result := AdminResult.deleted c.state c.counts
      if c.inFlight = 0 then (.answer .ok (some result), makeAbsent q s)
      else (.drain q result, s.setRq q { c with closing := true })

/-- SET-RQ-INTERRUPT (R159, R160). -/
def setRqInterruptEffect (p : RqInterruptParams) (s : State) : Reply × State :=
  match numberBelow 8 p.queue with
  | none => refuse .badTarget s
  | some q =>
    if (s.rq q).state = .absent then refuse .state s
    else
      match enable? p.enable, numberBelow 8 p.vector with
      | some enable, some vector =>
        if p.threshold = 0 then refuse .badParam s
        else accept (applyInterruptSettings q enable vector p.threshold.toNat p.delay s)
      | _, _ => refuse .badParam s

/-- IDENTIFY (R177). -/
def identifyEffect (buffer : Addr) (s : State) : Reply × State :=
  if !bufferAligned buffer then refuse .badParam s else (.write buffer identityRecord, s)

end Sys2Proof.Machine
end

