-- ==== Sys2Proof/Machine/AdminEngine.lean ====
section
/-!
DEFINITION. The admin engine (sections 9.2, 9.3): carrying a command out, handing its answer, what a posted answer means, taking a
command; the release of a report queue, which may post the waiting answer; and the entry of the device into FAULTED.
-/

namespace Sys2Proof.Machine

/-- The effect of a command at its taking, on the blocks it concerns (R170). -/
def commandEffect (id : BitVec 16) (c : Command) (s : State) : Reply × State :=
  match c with
  | .identify buffer => identifyEffect buffer s
  | .setLine p => setLineEffect p s
  | .setStatic mask levels => setStaticEffect mask levels s
  | .snapshot buffer clearGlitch => snapshotEffect buffer clearGlitch s
  | .bindTrack p => bindTrackEffect p s
  | .unbindTrack track => unbindTrackEffect track s
  | .startTracks mask mode start => startTracksEffect mask mode start s
  | .stopTrack track timing lines => stopTrackEffect track timing lines s
  | .pauseTrack track => pauseTrackEffect track s
  | .resumeTrack track action choice => resumeTrackEffect track action choice s
  | .trackStatus track buffer => trackStatusEffect track buffer s
  | .createRq p => createRqEffect p s
  | .deleteRq queue => deleteRqEffect queue s
  | .setRqInterrupt p => setRqInterruptEffect p s
  | .setTrip p => setTripEffect p s
  | .clearTrip unit => clearTripEffect unit s
  | .fireTrip unit => fireTripEffect id unit s
  | .unknown _ => refuse .badOpcode s

/-- The AQ position after a position. -/
def Admin.after (a : Admin) (pos : Nat) : Nat := (pos + 1) % a.size

/-- The ADMIN-DONE of the command in hand (R152, R171). -/
def adminDoneReport (h : InHand) (status : Status) (result : Option AdminResult) (a : Admin) : Report where
  source := BitVec.ofNat 8 h.pos
  tag := h.id
  time := h.taking
  body := .adminDone h.command.opcode status (a.after h.pos) result

/-- The ADMIN-DONE of the command at a position has been posted: the taken index advances, the command in hand is dropped, and a
device whose run request is withdrawn becomes HALTED (R173, R184). -/
def finishCommand (pos : Nat) (s : State) : State :=
  let s1 := { s with admin := { s.admin with taken := s.admin.after pos, engine := .idleWait } }
  if s1.port.dev = .ready ∧ s1.port.run = false then s1.setDev .halted else s1

/-- An ADMIN-DONE is handed to the report writer (R137, R140, R173): dropped in FAULTED, posted when RQ0 has a free slot, and
otherwise kept waiting with the engine in WAIT-SLOT. -/
def handAdminDone (h : InHand) (status : Status) (result : Option AdminResult) (s : State) : State :=
  let r := adminDoneReport h status result s.admin
  if s.port.dev = .faulted then s
  else if 1 ≤ freeSlots (s.rq 0) then finishCommand h.pos (postReport 0 r s)
  else { s with waiting := some r }.setEngine (.waitSlot h)

/-- A result buffer write is issued (R172). -/
def writeBuffer (addr : Addr) (data : List Byte) (s : State) : State :=
  s.issueWrite { addr := addr, data := data, purpose := .buffer }

/-- The engine acts on what a command answers (R171). -/
def settleReply (h : InHand) (reply : Reply) (s : State) : State :=
  match reply with
  | .answer status result => handAdminDone h status result s
  | .write addr data => (writeBuffer addr data s).setEngine (.writing h)
  | .drain q result => s.setEngine (.executing h q result)

/-- The engine takes the command at an AQ position: its effects are made, and then its answer is prepared (R168, R170, R171). -/
def takeCommand (pos : Nat) (id : BitVec 16) (c : Command) (s : State) : State :=
  let h : InHand := { pos := pos, id := id, command := c, taking := s.time }
  let out := commandEffect id c s
  settleReply h out.1 out.2

/-- The error-free completion of the admin engine's read with this command (R168). Without a read in flight there is no completion
and nothing changes; in RESETTING the completion is discarded (R190); after an entry into FAULTED it has no effect (R175). -/
def completeCommandRead (id : BitVec 16) (c : Command) (s : State) : State :=
  match s.readOf .admin with
  | none => s
  | some _ =>
    let s1 := s.dropRead .admin
    if s1.port.dev = .resetting then s1.endIfDrained
    else
      match s1.admin.engine with
      | .fetching pos => takeCommand pos id c s1
      | .idleWait => s1
      | .executing _ _ _ => s1
      | .writing _ => s1
      | .waitSlot _ => s1

/-! ## Releases -/

/-- A waiting ADMIN-DONE is posted when RQ0 has a free slot, and the engine leaves WAIT-SLOT (R140, R173). -/
def postWaiting (s : State) : State :=
  match s.waiting with
  | none => s
  | some r =>
    if 1 ≤ freeSlots (s.rq 0) then
      let s1 := postReport 0 r { s with waiting := none }
      match s1.admin.engine with
      | .waitSlot h => finishCommand h.pos s1
      | .idleWait => s1
      | .fetching _ => s1
      | .executing _ _ _ => s1
      | .writing _ => s1
    else s

/-- A release of a report queue (R144). -/
def releaseSlots (q : QueueId) (index : BitVec 16) (s : State) : State :=
  let c := s.rq q
  if releaseOk c index.toNat then
    if ringDist c.size index.toNat c.release = 0 then s
    else
      let s1 := moveRelease q index.toNat s
      if q = 0 then postWaiting s1 else s1
  else queueEvent (BitVec.ofNat 8 q.val) (.releaseRefused index) s

/-! ## FAULTED -/

/-- The device enters FAULTED from READY or HALTED (R187): the state and the cause, the waiting ADMIN-DONE dropped, every bound
track not already SAFE made SAFE (R132), the command in hand dropped (R175), and the fatal message (R163). In any other state
nothing happens. -/
def enterFaulted (cause : FaultCause) (s : State) : State :=
  if s.port.dev = .ready ∨ s.port.dev = .halted then
    let s1 := { s with port := { s.port with dev := .faulted, faultCause := cause }, waiting := none }
    let s2 := (List.finRange 8).foldl (fun s' t => forceSafe t .deviceFault s') s1
    fatalMessage (s2.setEngine .idleWait)
  else s

end Sys2Proof.Machine
end

