-- ==== Sys2Proof/Machine/Device.lean ====
section
/-!
DEFINITION. The register window, the device states and the resets (chapter 10): register reads, the writes of CTRL, POST and RLSE,
RUN validation, leaving IDLE, and what every block does at a reset.
-/

namespace Sys2Proof.Machine

/-! ## Reads (R179, R196) -/

/-- What a read of the register window returns; a read of TIML also latches TIMH (`readTiml`). Accesses narrower than 32 bits,
unaligned or above 0x30, and reads of POST and RLSE, return 0. -/
def readRegister (offset : BitVec 32) (width : AccessWidth) (s : State) : BitVec 32 :=
  match width with
  | .byte => 0
  | .half => 0
  | .word =>
    match offset.toNat with
    | 0x00 => idWord
    | 0x04 => if s.port.run then 1 else 0
    | 0x08 => statWord s.port
    | 0x0C => s.port.aqbl
    | 0x10 => s.port.aqbh
    | 0x14 => s.port.aqsz
    | 0x18 => s.port.r0bl
    | 0x1C => s.port.r0bh
    | 0x20 => s.port.r0sz
    | 0x2C => s.time.setWidth 32
    | 0x30 => s.port.timh
    | _ => 0

/-- A read of TIML returns the low half of the device time and latches the high half into TIMH (R180). -/
def readTiml (s : State) : State :=
  { s with port := { s.port with readData := readRegister 0x2C .word s, timh := s.time.extractLsb' 32 32 } }

/-! ## Leaving IDLE (R182, R183) -/

/-- The AQ base that AQBH and AQBL form. -/
def Port.aqBase (p : Port) : Addr := p.aqbh ++ p.aqbl

/-- The RQ0 base that R0BH and R0BL form. -/
def Port.rq0Base (p : Port) : Addr := p.r0bh ++ p.r0bl

/-- RUN validation: the code of the first check that fails, or NONE (R182). -/
def validateRun (p : Port) : ConfigError :=
  if ringSizeOk 4 256 p.aqsz.toNat = false then .aqSize
  else if p.aqBase.toNat % 64 ≠ 0 then .aqBase
  else if ringSizeOk 16 4096 p.r0sz.toNat = false then .rq0Size
  else if p.rq0Base.toNat % 32 ≠ 0 then .rq0Base
  else .none

/-- RQ0's table entry as the device leaves IDLE (R133, R155, R183). -/
def startedRq0 (p : Port) : ReportQueue :=
  { ReportQueue.absent with state := .active, base := p.rq0Base, size := p.r0sz.toNat, pass := true }

/-- The device leaves IDLE for READY (R183). -/
def leaveIdle (s : State) : State :=
  { s.setRq 0 (startedRq0 s.port) with
    admin := { base := s.port.aqBase, size := s.port.aqsz.toNat, post := 0, taken := 0, engine := .idleWait }
    port := { s.port with dev := .ready, run := true, configError := .none } }

/-- The run request takes a value. -/
def State.setRun (s : State) (run : Bool) : State := { s with port := { s.port with run := run } }

/-- A CTRL write with RESET 0 (R182, R184). -/
def writeRun (run : Bool) (s : State) : State :=
  match s.port.dev with
  | .idle =>
    if run then
      match validateRun s.port with
      | .none => leaveIdle s
      | e => { s with port := { s.port with run := false, configError := e } }
    else s.setRun false
  | .ready =>
    if run then s.setRun true
    else if s.port.run = false then s
    else if s.admin.engine = .idleWait then (s.setRun false).setDev .halted
    else s.setRun false
  | .halted => if run then (s.setRun true).setDev .ready else s
  | .faulted => s
  | .resetting => s

/-! ## Resets (R189, R190) -/

/-- A track at a port or soft reset: UNBOUND, one more epoch, its context dropped; the indices, the reference time, the four
counters, the lane list and the RQ number keep their values (R5, R26, R81). -/
def Track.afterReset (c : Track) : Track :=
  { c.idleTimers with
    state := .unbound
    pausedFrom := none
    safeCause := none
    safeFrom := none
    current := none
    loop := none
    stopReq := none
    startTime := none
    epoch := c.epoch + 1
    prefetch := []
    read := none
    retireAddr := 0
    retireWrite := none }

/-- The host port's registers at the start of RESETTING (R179, R181, R189). -/
def Port.afterReset (p : Port) : Port :=
  { Port.powerOn with dev := .resetting, readData := p.readData }

/-- Every block acts on the reset at the start of RESETTING (R189). -/
def resetBlocks (s : State) : State :=
  let s1 := claimReset s
  { s1 with
    port := s.port.afterReset
    admin := Admin.afterReset
    lastGranted := 7
    tracks := Vector.ofFn fun t => (s.tracks[t] : Track).afterReset
    trips := Vector.replicate 2 Trip.afterReset
    rqs := Vector.replicate 8 ReportQueue.absent
    waiting := none
    link := { s.link with marks := Vector.replicate 8 false } }

/-- The reads handed to the host port and not yet carried are abandoned at a soft reset (R190); which they are is free (log entry
5). -/
def abandonUncarried (s : State) : State :=
  if s.link.reads = [] then s
  else
    { s with
      link := { s.link with reads := s.link.reads.filter fun r => !Config.readNotCarried s.freeIndex r.who }
      freeIndex := s.freeIndex + 1 }

/-- A soft reset: RESETTING begins and lasts until every read and write in flight has completed or been abandoned (R189, R190). -/
def softReset (s : State) : State :=
  if s.port.dev = .resetting then s else (abandonUncarried (resetBlocks s)).endIfDrained

/-- Every read and write not yet completed is abandoned, as the link is down (R190). A retire-word write is abandoned with the
others, where R25 and R81 speak of one in flight at a port reset that still completes (log entry 28). -/
def abandonAll (s : State) : State := { s with link := { s.link with reads := [], writes := [] } }

/-- A port reset (R189, R190). During the RESETTING of a soft reset it abandons what remains of the drain; the latch reads 0 after
it as after every port reset (R179). -/
def hardReset (s : State) : State :=
  if s.port.dev = .resetting then (abandonAll { s with port := { s.port with timh := 0 } }).endIfDrained
  else (abandonAll (resetBlocks s)).endIfDrained

/-- Power-on (R181, R190): device time 0 and every block at its power-on values. The pins, the function's configuration, what was
handed to the link before, the count of free choices and the queue are not the part's and stay (log entry 8). -/
def powerOn (s : State) : State :=
  { State.reset with
    pins := s.pins
    sampler := { State.reset.sampler with pins := s.pins }
    link := { Link.powerOn with masked := s.link.masked, msiAllowed := s.link.msiAllowed, out := s.link.out }
    freeIndex := s.freeIndex
    pending := s.pending }

/-! ## POST and RLSE (R185, R186) -/

/-- The device takes POST and RLSE writes: READY or HALTED. -/
def State.taking (s : State) : Bool := s.port.dev = .ready || s.port.dev = .halted

/-- The check that a post index passes against a ring's size, post index and taken or retire index (R2, R165). -/
def postOk (size post first index : Nat) : Bool :=
  index < size && ringDist size post first + ringDist size index post ≤ size - 1

/-- A POST write (R185, R2, R165). -/
def writePost (selector : BitVec 4) (index : BitVec 16) (s : State) : State :=
  let refused := queueEvent (selector.setWidth 8) (.postRefused index) s
  if !s.taking then s
  else if selector = 0 then
    if postOk s.admin.size s.admin.post s.admin.taken index.toNat then
      { s with admin := { s.admin with post := index.toNat } }
    else refused
  else if h : selector.toNat - 1 < 8 then
    let c := s.track ⟨selector.toNat - 1, h⟩
    if c.bound ∧ postOk c.sqSize c.post c.retire index.toNat then
      s.setTrack ⟨selector.toNat - 1, h⟩ { c with post := index.toNat }
    else refused
  else refused

/-- An RLSE write (R186, R144, R148). -/
def writeRlse (queue : BitVec 4) (index : BitVec 16) (s : State) : State :=
  if !s.taking then s
  else if h : queue.toNat < 8 then releaseSlots ⟨queue.toNat, h⟩ index s
  else queueEvent (queue.setWidth 8) (.releaseRefused index) s

/-! ## Other writes (R179, R182) -/

/-- A queue register takes a value in IDLE (R182). -/
def writeQueueRegister (offset : BitVec 32) (value : BitVec 32) (p : Port) : Port :=
  match offset.toNat with
  | 0x0C => { p with aqbl := value }
  | 0x10 => { p with aqbh := value }
  | 0x14 => { p with aqsz := value }
  | 0x18 => { p with r0bl := value }
  | 0x1C => { p with r0bh := value }
  | 0x20 => { p with r0sz := value }
  | _ => p

/-- A register write of any offset and width (R179). A whole write of CTRL, POST or RLSE is the event of its own row. -/
def writeRegister (offset : BitVec 32) (width : AccessWidth) (value : BitVec 32) (s : State) : State :=
  match width with
  | .byte => s
  | .half => s
  | .word =>
    if offset = 0x04 then
      if s.port.dev = .resetting then s
      else if value.getLsbD 1 then softReset s
      else writeRun (value.getLsbD 0) s
    else if offset = 0x24 then writePost (value.extractLsb' 16 4) (value.extractLsb' 0 16) s
    else if offset = 0x28 then writeRlse (value.extractLsb' 16 4) (value.extractLsb' 0 16) s
    else if s.port.dev = .idle then { s with port := writeQueueRegister offset value s.port }
    else s

end Sys2Proof.Machine
end

