-- ==== Sys2Proof/Machine/Fetch.lean ====
section
/-!
DEFINITION. The fetch unit and the completions of the host port (sections 1.3, 1.4, 1.6, 7.6): the arbiter, the issue of a read, and
how reads, retire-word writes, entry writes and buffer writes complete.
-/

namespace Sys2Proof.Machine

/-! ## The arbiter (R13, R19, R20) -/

/-- The track is a fetch requester (R13). -/
def Track.requester (c : Track) : Bool :=
  c.canEnterSafe && c.prefetch.length < Config.prefetchPlaces && c.fetch ≠ c.post && c.read = none

/-- The track is granted in the first step of the arbiter: EMPTY, or DUE with an empty list (R19). -/
def Track.urgent (c : Track) : Bool := c.state = .empty || (c.state = .due && c.prefetch = [])

/-- The admin engine is permitted to take commands (R167). -/
def permitted (s : State) : Bool := s.port.dev = .ready && s.port.run

/-- The admin engine is waiting for a command (R167). -/
def waitingForCommand (s : State) : Bool :=
  s.admin.engine = .idleWait && permitted s && s.admin.post ≠ s.admin.taken

/-- The tracks in round-robin order, from the one after the last granted track on (R19 step 3). -/
def roundRobin (last : TrackId) : List TrackId := (List.finRange 8).map fun i => last + 1 + i

/-- The requester that the arbiter grants, if one waits (R19). -/
def grant (s : State) : Option Requester :=
  match (List.finRange 8).find? fun t => (s.track t).requester && (s.track t).urgent with
  | some t => some (.track t)
  | none =>
    if waitingForCommand s then some .admin
    else ((roundRobin s.lastGranted).find? fun t => (s.track t).requester).map .track

/-- The number of records a read covers (R13): the smallest of the free places, the positions to the ring end and the posted
positions not yet read. -/
def Track.readLength (c : Track) : Nat :=
  min (min (Config.prefetchPlaces - c.prefetch.length) (c.sqSize - c.fetch)) (ringDist c.sqSize c.post c.fetch)

/-- A granted track's read is issued (R13, R20). Its address is a 64-bit sum that wraps (log entry 29). -/
def issueStepRead (t : TrackId) (s : State) : State :=
  let c := s.track t
  let s1 := s.setTrack t { c with read := some { start := c.fetch, count := c.readLength, stale := false } }
  { s1 with lastGranted := t }.issueRead (.track t) (c.sqBase + 32 * BitVec.ofNat 64 c.fetch) (32 * c.readLength)

/-- The granted admin engine's read is issued and the engine enters FETCHING (R168). Its address is a 64-bit sum that wraps (log
entry 29). -/
def issueCommandRead (s : State) : State :=
  (s.setEngine (.fetching s.admin.taken)).issueRead .admin (s.admin.base + 64 * BitVec.ofNat 64 s.admin.taken) 64

/-- One issue of the fetch unit (R19); in RESETTING it issues no read (R190). -/
def issueGrant (s : State) : State :=
  if s.port.dev = .resetting then s
  else
    match grant s with
    | some (.track t) => issueStepRead t s
    | some .admin => issueCommandRead s
    | none => s

/-! ## Step reads -/

/-- The records of a read with their positions (R14). -/
def fetched (r : ReadInFlight) (data : Vector StepRecord 8) : List Fetched :=
  (data.toList.take r.count).zipIdx.map fun x => { record := x.1, pos := r.start + x.2 }

/-- A current read's records join the tail of the list and the fetch index advances (R14). -/
def Track.join (c : Track) (r : ReadInFlight) (data : Vector StepRecord 8) : Track :=
  { c with prefetch := c.prefetch ++ fetched r data, fetch := (c.fetch + r.count) % c.sqSize, read := none }

/-- A step read completes without error (R14, R15, R49, R190). -/
def completeStepRead (t : TrackId) (data : Vector StepRecord 8) (s : State) : State :=
  match s.readOf (.track t) with
  | none => s
  | some _ =>
    let s1 := s.dropRead (.track t)
    if s1.port.dev = .resetting then s1.endIfDrained
    else
      match (s1.track t).read with
      | none => s1
      | some r =>
        if r.stale then s1.modTrack t fun c => { c with read := none }
        else
          let s2 := s1.modTrack t fun c => c.join r data
          if (s2.track t).state = .empty then takeNext t (s2.modTrack t Track.idleTimers) else s2

/-- A step read completes with error (R15, R16, R190). -/
def failStepRead (t : TrackId) (s : State) : State :=
  match s.readOf (.track t) with
  | none => s
  | some _ =>
    let s1 := s.dropRead (.track t)
    if s1.port.dev = .resetting then s1.endIfDrained
    else
      match (s1.track t).read with
      | none => s1
      | some r =>
        let s2 := s1.modTrack t fun c => { c with read := none }
        if r.stale then s2 else forceSafe t .hostMemory s2

/-! ## Admin command reads -/

/-- A command read completes with error (R169, R175, R190). -/
def failCommandRead (s : State) : State :=
  match s.readOf .admin with
  | none => s
  | some _ =>
    let s1 := s.dropRead .admin
    if s1.port.dev = .resetting then s1.endIfDrained
    else
      match s1.admin.engine with
      | .fetching _ => enterFaulted .aqFetch s1
      | .idleWait => s1
      | .executing _ _ _ => s1
      | .writing _ => s1
      | .waitSlot _ => s1

/-- A read in flight for 1 000 000 ticks completes with error (R17). -/
def timeoutRead (who : Requester) (s : State) : State :=
  match s.readOf who with
  | none => s
  | some r =>
    if reached (some (r.issued + Config.readLimit)) s.time then
      match who with
      | .track t => failStepRead t s
      | .admin => failCommandRead s
    else s

/-! ## Retire-word writes (R24, R25) -/

/-- A retire-word write's purpose. -/
def WritePurpose.isRetireWordOf (t : TrackId) : WritePurpose → Bool
  | .retireWord t' => t' == t
  | _ => false

/-- A retire-word write of an earlier binding has completed: a track that is bound again and has a retire word writes its present
retire index at once (R25). -/
def afterEarlierWrite (t : TrackId) (s : State) : State :=
  let s1 := s.modTrack t fun c => { c with retireWrite := none }
  if (s1.track t).bound ∧ (s1.track t).retireAddr ≠ 0 then writeRetireWord t s1 else s1

/-- A retire-word write completes (R24, R25, R190). -/
def completeRetireWord (t : TrackId) (error : Bool) (s : State) : State :=
  match s.writeOf (WritePurpose.isRetireWordOf t) with
  | none => s
  | some _ =>
    let s1 := s.dropWrite (WritePurpose.isRetireWordOf t)
    if s1.port.dev = .resetting then s1.endIfDrained
    else
      match (s1.track t).retireWrite with
      | none => s1
      | some w =>
        if w.earlier then afterEarlierWrite t s1
        else
          let s2 := s1.modTrack t fun c => { c with retireWrite := none }
          if error then forceSafe t .hostMemory s2
          else if (s2.track t).retire ≠ w.value then writeRetireWord t s2
          else s2

/-! ## Entry writes (R145 to R151) -/

/-- A closing queue whose last write in flight has completed becomes ABSENT, and the DELETE-RQ that waits for it is answered outside
FAULTED (R148, R151, R175). -/
def closeIfDrained (q : QueueId) (s : State) : State :=
  if (s.rq q).closing ∧ (s.rq q).inFlight = 0 then
    let s1 := makeAbsent q s
    match s1.admin.engine with
    | .executing h q' result => if q' = q then handAdminDone h .ok (some result) s1 else s1
    | .idleWait => s1
    | .fetching _ => s1
    | .writing _ => s1
    | .waitSlot _ => s1
  else s

/-- The writes in flight of a queue fall by one. -/
def lowerInFlight (q : QueueId) (s : State) : State := s.setRq q { s.rq q with inFlight := (s.rq q).inFlight - 1 }

/-- An entry write of a queue completes without error (R145, R148, R151, R156, R161). -/
def completeEntry (q : QueueId) (s : State) : State :=
  match s.writeOf (WritePurpose.isEntryOf q) with
  | none => s
  | some _ =>
    let s1 := s.dropWrite (WritePurpose.isEntryOf q)
    if s1.port.dev = .resetting then s1.endIfDrained
    else
      let s2 := lowerInFlight q s1
      let s3 := if s2.port.dev ≠ .faulted ∧ (s2.rq q).state ≠ .absent then countEntry q s2 else s2
      closeIfDrained q s3

/-- The slot and the sequence number of a failed entry write (R147). -/
def PendingWrite.slotAndSeq (w : PendingWrite) : Nat × BitVec 16 :=
  match w.purpose with
  | .entry _ slot seq => (slot, seq)
  | .retireWord _ => (0, 0)
  | .buffer => (0, 0)

/-- An entry write of a queue completes with error (R147, R148). -/
def failEntry (q : QueueId) (s : State) : State :=
  match s.writeOf (WritePurpose.isEntryOf q) with
  | none => s
  | some w =>
    let s1 := s.dropWrite (WritePurpose.isEntryOf q)
    if s1.port.dev = .resetting then s1.endIfDrained
    else
      let s2 := lowerInFlight q s1
      if s2.port.dev = .faulted then closeIfDrained q s2
      else if q = 0 then enterFaulted .rq0Write s2
      else if (s2.rq q).state = .active then
        let s3 := s2.setRq q { s2.rq q with state := .failed }
        closeIfDrained q (queueEvent (BitVec.ofNat 8 q.val) (.rqFailed w.slotAndSeq.1 w.slotAndSeq.2) s3)
      else closeIfDrained q s2

/-! ## Buffer writes (R172) -/

/-- A result buffer write's purpose. -/
def WritePurpose.isBuffer : WritePurpose → Bool
  | .buffer => true
  | .entry _ _ _ => false
  | .retireWord _ => false

/-- The result buffer write completes (R172, R175, R190). -/
def completeBuffer (error : Bool) (s : State) : State :=
  match s.writeOf WritePurpose.isBuffer with
  | none => s
  | some _ =>
    let s1 := s.dropWrite WritePurpose.isBuffer
    if s1.port.dev = .resetting then s1.endIfDrained
    else
      match s1.admin.engine with
      | .writing h => handAdminDone h (if error then .dmaError else .ok) none s1
      | .idleWait => s1
      | .fetching _ => s1
      | .executing _ _ _ => s1
      | .waitSlot _ => s1

end Sys2Proof.Machine
end

