-- ==== Sys2Proof/Machine/HostEvents.lean ====
section
/-!
DEFINITION. The meanings of the rows that come from the host and the link: power-on, resets, register accesses and the masks of the
vectors.
-/

namespace Sys2Proof.Machine

/-- POWER_ON (R181, R190). -/
def execPowerOn (s : State) : Host.Outcome State Fault Refusal := .next (powerOn s)

/-- PORT_RESET (R189, R190). -/
def execPortReset (s : State) : Host.Outcome State Fault Refusal := .next (hardReset s)

/-- CTRL_RESET: a CTRL write with RESET 1, whatever its RUN value; ignored in RESETTING (R189). -/
def execCtrlReset (_run : Bool) (s : State) : Host.Outcome State Fault Refusal := .next (softReset s)

/-- CTRL_RUN: a CTRL write with RESET 0 (R182, R184). -/
def execCtrlRun (run : Bool) (s : State) : Host.Outcome State Fault Refusal := .next (writeRun run s)

/-- POST (R185). -/
def execPost (selector : BitVec 4) (index : BitVec 16) (s : State) : Host.Outcome State Fault Refusal :=
  .next (writePost selector index s)

/-- RLSE (R186). -/
def execRlse (queue : BitVec 4) (index : BitVec 16) (s : State) : Host.Outcome State Fault Refusal :=
  .next (writeRlse queue index s)

/-- TIML_READ (R180). -/
def execTimlRead (s : State) : Host.Outcome State Fault Refusal := .next (readTiml s)

/-- REGISTER_WRITE (R179, R182). -/
def execRegisterWrite (offset : BitVec 32) (width : AccessWidth) (value : BitVec 32) (s : State) :
    Host.Outcome State Fault Refusal :=
  .next (writeRegister offset width value s)

/-- A vector is unmasked: with its pending mark set, one message is sent and the mark is cleared (R162). -/
def unmaskVector (v : VectorId) (s : State) : State :=
  let s1 := { s with link := { s.link with masked := s.link.masked.set v false, marks := s.link.marks.set v false } }
  if s.link.marks[v] then s1.sendMessage v else s1

/-- VECTOR_UNMASK (R162). -/
def execVectorUnmask (v : VectorId) (s : State) : Host.Outcome State Fault Refusal := .next (unmaskVector v s)

/-- VECTOR_MASK (R162). -/
def execVectorMask (v : VectorId) (s : State) : Host.Outcome State Fault Refusal :=
  .next { s with link := { s.link with masked := s.link.masked.set v true } }

end Sys2Proof.Machine
end

