-- ==== Sys2Proof/Machine/AdminCommands.lean ====
section
/-!
DEFINITION. The meanings of the rows of the admin engine: the 17 admin commands, an opcode that names none, the completions of
command reads and of result buffer writes. An admin command's row is the event in which the engine takes it (R168).
-/

namespace Sys2Proof.Machine

/-- ADMIN_READ_COMPLETION: the command read completes with these bytes and the engine takes the command they spell (R168, R194). -/
def execAdminReadCompletion (record : CommandRecord) (s : State) : Host.Outcome State Fault Refusal :=
  .next (completeCommandRead (decodeCommand record).1 (decodeCommand record).2 s)

/-- ADMIN_READ_ERROR (R169). -/
def execAdminReadError (s : State) : Host.Outcome State Fault Refusal := .next (failCommandRead s)

/-- UNKNOWN_OPCODE (R170). With an opcode that names a command there is no such event and nothing changes (log entry 3). -/
def execUnknownOpcode (id : BitVec 16) (opcode : Byte) (s : State) : Host.Outcome State Fault Refusal :=
  .next (if opcodeNamed opcode then s else completeCommandRead id (.unknown opcode) s)

/-- IDENTIFY (R177). -/
def execIdentify (id : BitVec 16) (buffer : Addr) (s : State) : Host.Outcome State Fault Refusal :=
  .next (completeCommandRead id (.identify buffer) s)

/-- SET_LINE (R87). -/
def execSetLine (id : BitVec 16) (p : SetLineParams) (s : State) : Host.Outcome State Fault Refusal :=
  .next (completeCommandRead id (.setLine p) s)

/-- SET_STATIC (R91). -/
def execSetStatic (id : BitVec 16) (mask levels : BitVec 48) (s : State) : Host.Outcome State Fault Refusal :=
  .next (completeCommandRead id (.setStatic mask levels) s)

/-- SNAPSHOT (R92). -/
def execSnapshot (id : BitVec 16) (buffer : Addr) (clearGlitch : Bool) (s : State) : Host.Outcome State Fault Refusal :=
  .next (completeCommandRead id (.snapshot buffer clearGlitch) s)

/-- BIND_TRACK (R60). -/
def execBindTrack (id : BitVec 16) (p : BindParams) (s : State) : Host.Outcome State Fault Refusal :=
  .next (completeCommandRead id (.bindTrack p) s)

/-- UNBIND_TRACK (R63). -/
def execUnbindTrack (id : BitVec 16) (track : Byte) (s : State) : Host.Outcome State Fault Refusal :=
  .next (completeCommandRead id (.unbindTrack track) s)

/-- START_TRACKS (R64). -/
def execStartTracks (id : BitVec 16) (mask mode : Byte) (start : Time) (s : State) : Host.Outcome State Fault Refusal :=
  .next (completeCommandRead id (.startTracks mask mode start) s)

/-- STOP_TRACK (R68). -/
def execStopTrack (id : BitVec 16) (track timing lines : Byte) (s : State) : Host.Outcome State Fault Refusal :=
  .next (completeCommandRead id (.stopTrack track timing lines) s)

/-- PAUSE_TRACK (R71). -/
def execPauseTrack (id : BitVec 16) (track : Byte) (s : State) : Host.Outcome State Fault Refusal :=
  .next (completeCommandRead id (.pauseTrack track) s)

/-- RESUME_TRACK (R72). -/
def execResumeTrack (id : BitVec 16) (track action choice : Byte) (s : State) : Host.Outcome State Fault Refusal :=
  .next (completeCommandRead id (.resumeTrack track action choice) s)

/-- TRACK_STATUS (R79). -/
def execTrackStatus (id : BitVec 16) (track : Byte) (buffer : Addr) (s : State) : Host.Outcome State Fault Refusal :=
  .next (completeCommandRead id (.trackStatus track buffer) s)

/-- CREATE_RQ (R149). -/
def execCreateRq (id : BitVec 16) (p : CreateRqParams) (s : State) : Host.Outcome State Fault Refusal :=
  .next (completeCommandRead id (.createRq p) s)

/-- DELETE_RQ (R150). -/
def execDeleteRq (id : BitVec 16) (queue : Byte) (s : State) : Host.Outcome State Fault Refusal :=
  .next (completeCommandRead id (.deleteRq queue) s)

/-- SET_RQ_INTERRUPT (R159). -/
def execSetRqInterrupt (id : BitVec 16) (p : RqInterruptParams) (s : State) : Host.Outcome State Fault Refusal :=
  .next (completeCommandRead id (.setRqInterrupt p) s)

/-- SET_TRIP (R118). -/
def execSetTrip (id : BitVec 16) (p : SetTripParams) (s : State) : Host.Outcome State Fault Refusal :=
  .next (completeCommandRead id (.setTrip p) s)

/-- CLEAR_TRIP (R125). -/
def execClearTrip (id : BitVec 16) (unit : Byte) (s : State) : Host.Outcome State Fault Refusal :=
  .next (completeCommandRead id (.clearTrip unit) s)

/-- FIRE_TRIP (R121). -/
def execFireTrip (id : BitVec 16) (unit : Byte) (s : State) : Host.Outcome State Fault Refusal :=
  .next (completeCommandRead id (.fireTrip unit) s)

/-- BUFFER_WRITE_COMPLETION (R172). -/
def execBufferWriteCompletion (error : Bool) (s : State) : Host.Outcome State Fault Refusal := .next (completeBuffer error s)

end Sys2Proof.Machine
end

