-- ==== Sys2Proof/Machine/BlockEvents.lean ====
section
/-!
DEFINITION. The meanings of the rows that the part's own blocks take: read issues and completions, timer expiries, raw changes,
window expiries, and the completions of retire-word and entry writes. An expiry acts only when its timer is set and the device time
has reached its moment, and a completion only when what it completes is in flight (R27, R17; log entry 3).
-/

namespace Sys2Proof.Machine

/-- READ_ISSUE (R19). -/
def execReadIssue (s : State) : Host.Outcome State Fault Refusal := .next (issueGrant s)

/-- STEP_READ_COMPLETION (R14, R15, R49). -/
def execStepReadCompletion (t : TrackId) (data : Vector StepRecord 8) (s : State) : Host.Outcome State Fault Refusal :=
  .next (completeStepRead t data s)

/-- STEP_READ_ERROR (R16). -/
def execStepReadError (t : TrackId) (s : State) : Host.Outcome State Fault Refusal := .next (failStepRead t s)

/-- READ_TIMEOUT (R17). -/
def execReadTimeout (who : Requester) (s : State) : Host.Outcome State Fault Refusal := .next (timeoutRead who s)

/-- The start time of a track is reached, when it is ARMED and the moment has come (R66). -/
def reachStart (t : TrackId) (s : State) : State :=
  match (s.track t).state, (s.track t).startTime with
  | .armed, some start => if start ≤ s.time then startTrack t start s else s
  | _, _ => s

/-- START_TIME_REACHED (R66). -/
def execStartTimeReached (t : TrackId) (s : State) : Host.Outcome State Fault Refusal := .next (reachStart t s)

/-- The due timer of a DUE track expires, when its moment has come (R34). -/
def expireDue (t : TrackId) (s : State) : State :=
  match (s.track t).state, (s.track t).current with
  | .due, some step => if reached (s.track t).dueTimer s.time then dueExpired t step s else s
  | _, _ => s

/-- DUE_TIMER_EXPIRY (R34). -/
def execDueTimerExpiry (t : TrackId) (s : State) : Host.Outcome State Fault Refusal := .next (expireDue t s)

/-- The timeout timer of a track in INPUT-WAIT expires, when its moment has come (R43). -/
def expireTimeout (t : TrackId) (s : State) : State :=
  match (s.track t).state, (s.track t).current with
  | .inputWait, some step => if reached (s.track t).timeoutTimer s.time then timeoutExpired t step s else s
  | _, _ => s

/-- TIMEOUT_TIMER_EXPIRY (R43). -/
def execTimeoutTimerExpiry (t : TrackId) (s : State) : Host.Outcome State Fault Refusal := .next (expireTimeout t s)

/-- The hold timer of an EMPTY track expires, when its moment has come (R50). -/
def expireHold (t : TrackId) (s : State) : State :=
  if (s.track t).state = .empty ∧ reached (s.track t).holdTimer s.time then enterSafe t .starved .started s else s

/-- HOLD_TIMER_EXPIRY (R50). -/
def execHoldTimerExpiry (t : TrackId) (s : State) : Host.Outcome State Fault Refusal := .next (expireHold t s)

/-- RETIRE_WORD_WRITE_DONE (R24, R25). -/
def execRetireWordWriteDone (t : TrackId) (s : State) : Host.Outcome State Fault Refusal := .next (completeRetireWord t false s)

/-- RETIRE_WORD_WRITE_ERROR (R24, R25). -/
def execRetireWordWriteError (t : TrackId) (s : State) : Host.Outcome State Fault Refusal := .next (completeRetireWord t true s)

/-- RAW_CHANGE (R99 to R101). -/
def execRawChange (line : LineId) (level : Level) (s : State) : Host.Outcome State Fault Refusal :=
  .next (samplePin line level s)

/-- The window timer of a PENDING line expires, when its moment has come (R102). -/
def expireWindow (l : LineId) (s : State) : State :=
  match (s.line l).pendingStart with
  | some start => if reached (s.line l).windowTimer s.time then windowExpired l start s else s
  | none => s

/-- WINDOW_EXPIRY (R102). -/
def execWindowExpiry (line : LineId) (s : State) : Host.Outcome State Fault Refusal := .next (expireWindow line s)

/-- ENTRY_WRITE_COMPLETION (R145). -/
def execEntryWriteCompletion (q : QueueId) (s : State) : Host.Outcome State Fault Refusal := .next (completeEntry q s)

/-- ENTRY_WRITE_ERROR (R147, R148). -/
def execEntryWriteError (q : QueueId) (s : State) : Host.Outcome State Fault Refusal := .next (failEntry q s)

/-- DELAY_TIMER_EXPIRY (R158). -/
def execDelayTimerExpiry (q : QueueId) (s : State) : Host.Outcome State Fault Refusal :=
  .next (if reached (s.rq q).irq.timer s.time then sendFor q s else s)

end Sys2Proof.Machine
end

