-- ==== Sys2Proof/Machine/Clock.lean ====
section
/-!
DEFINITION. The device timebase (R180) as the step of an empty queue: one tick, after which the events whose moment has come wait in
the queue, in a free order (log entries 1, 2 and 4). So no set timer is ever passed (R27).
-/

namespace Sys2Proof.Machine

/-- The timed events of a track whose moment the device time has reached (R27, R66). -/
def trackDue (s : State) (t : TrackId) : List Instr :=
  let c := s.track t
  (if c.state = .armed ∧ reached c.startTime s.time then [.startTimeReached t] else [])
    ++ (if c.state = .due ∧ reached c.dueTimer s.time then [.dueTimerExpiry t] else [])
    ++ (if c.state = .inputWait ∧ reached c.timeoutTimer s.time then [.timeoutTimerExpiry t] else [])
    ++ (if c.state = .empty ∧ reached c.holdTimer s.time then [.holdTimerExpiry t] else [])

/-- The lines whose pin the sampler of this tick finds at a level other than the raw level (R99). -/
def sampledChanges (s : State) : List LineId :=
  (List.finRange 48).filter fun l => (s.line l).mode ≠ .off && (s.line l).raw ≠ s.pin l

/-- The events whose moment the device time has reached: of the tracks, the raw changes that the sampler finds (R99), the window
timers (R98), the delay timers (R155) and the reads that have reached their limit (R17). -/
def dueEvents (s : State) : List Instr :=
  (List.finRange 8).flatMap (trackDue s)
    ++ (sampledChanges s).map (fun l => .rawChange l (s.pin l))
    ++ ((List.finRange 48).filter fun l => reached (s.line l).windowTimer s.time).map .windowExpiry
    ++ ((List.finRange 8).filter fun q => reached (s.rq q).irq.timer s.time).map .delayTimerExpiry
    ++ (s.link.reads.filter fun r => reached (some (r.issued + Config.readLimit)) s.time).map fun r => .readTimeout r.who

/-- One tick of the device time (R180), its sample of the pins (R99), and the events it brings due. -/
def tick (s : State) : State :=
  let s1 := { s with time := s.time + 1, sampler := Sampler.begin s.pins s.lines }
  let due := dueEvents s1
  { s1.afterOrder due with pending := s1.freeOrder due }

end Sys2Proof.Machine
end

