-- ==== Sys2Proof/Machine/Dispatch.lean ====
section
/-!
DEFINITION. The dispatch: one direct call of a meaning per row of spec/opcode_table.json.
-/

namespace Sys2Proof.Machine

/-- The effect of a command on everything but the queue of waiting commands. -/
def exec (i : Instr) (s : State) : Host.Outcome State Fault Refusal :=
  match i with
  | .powerOn => Sys2Proof.Machine.execPowerOn s
  | .portReset => Sys2Proof.Machine.execPortReset s
  | .ctrlReset run => Sys2Proof.Machine.execCtrlReset run s
  | .ctrlRun run => Sys2Proof.Machine.execCtrlRun run s
  | .post selector index => Sys2Proof.Machine.execPost selector index s
  | .rlse queue index => Sys2Proof.Machine.execRlse queue index s
  | .timlRead => Sys2Proof.Machine.execTimlRead s
  | .registerWrite offset width value => Sys2Proof.Machine.execRegisterWrite offset width value s
  | .readIssue => Sys2Proof.Machine.execReadIssue s
  | .stepReadCompletion t data => Sys2Proof.Machine.execStepReadCompletion t data s
  | .stepReadError t => Sys2Proof.Machine.execStepReadError t s
  | .readTimeout who => Sys2Proof.Machine.execReadTimeout who s
  | .adminReadCompletion record => Sys2Proof.Machine.execAdminReadCompletion record s
  | .unknownOpcode id opcode => Sys2Proof.Machine.execUnknownOpcode id opcode s
  | .adminReadError => Sys2Proof.Machine.execAdminReadError s
  | .identify id buffer => Sys2Proof.Machine.execIdentify id buffer s
  | .setLine id p => Sys2Proof.Machine.execSetLine id p s
  | .setStatic id mask levels => Sys2Proof.Machine.execSetStatic id mask levels s
  | .snapshot id buffer clearGlitch => Sys2Proof.Machine.execSnapshot id buffer clearGlitch s
  | .bindTrack id p => Sys2Proof.Machine.execBindTrack id p s
  | .unbindTrack id track => Sys2Proof.Machine.execUnbindTrack id track s
  | .startTracks id mask mode start => Sys2Proof.Machine.execStartTracks id mask mode start s
  | .stopTrack id track timing lines => Sys2Proof.Machine.execStopTrack id track timing lines s
  | .pauseTrack id track => Sys2Proof.Machine.execPauseTrack id track s
  | .resumeTrack id track action choice => Sys2Proof.Machine.execResumeTrack id track action choice s
  | .trackStatus id track buffer => Sys2Proof.Machine.execTrackStatus id track buffer s
  | .createRq id p => Sys2Proof.Machine.execCreateRq id p s
  | .deleteRq id queue => Sys2Proof.Machine.execDeleteRq id queue s
  | .setRqInterrupt id p => Sys2Proof.Machine.execSetRqInterrupt id p s
  | .setTrip id p => Sys2Proof.Machine.execSetTrip id p s
  | .clearTrip id unit => Sys2Proof.Machine.execClearTrip id unit s
  | .fireTrip id unit => Sys2Proof.Machine.execFireTrip id unit s
  | .bufferWriteCompletion error => Sys2Proof.Machine.execBufferWriteCompletion error s
  | .startTimeReached t => Sys2Proof.Machine.execStartTimeReached t s
  | .dueTimerExpiry t => Sys2Proof.Machine.execDueTimerExpiry t s
  | .timeoutTimerExpiry t => Sys2Proof.Machine.execTimeoutTimerExpiry t s
  | .holdTimerExpiry t => Sys2Proof.Machine.execHoldTimerExpiry t s
  | .retireWordWriteDone t => Sys2Proof.Machine.execRetireWordWriteDone t s
  | .retireWordWriteError t => Sys2Proof.Machine.execRetireWordWriteError t s
  | .rawChange line level => Sys2Proof.Machine.execRawChange line level s
  | .windowExpiry line => Sys2Proof.Machine.execWindowExpiry line s
  | .entryWriteCompletion q => Sys2Proof.Machine.execEntryWriteCompletion q s
  | .entryWriteError q => Sys2Proof.Machine.execEntryWriteError q s
  | .delayTimerExpiry q => Sys2Proof.Machine.execDelayTimerExpiry q s
  | .vectorUnmask v => Sys2Proof.Machine.execVectorUnmask v s
  | .vectorMask v => Sys2Proof.Machine.execVectorMask v s

end Sys2Proof.Machine
end

