-- ==== Sys2Proof/Safety.lean ====
section
/-!
DEFINITION. The terms of the claims: a command that completes, the premise under which the admin engine takes a command, when a
timed event is due, and the invariants that the spec states of every moment: of the report queues (R135, R142, R155), the lines
(R83, R98), the lanes (R84), the timers of a track (R27), its prefetch list (R12), its ring order (R1, R45), the fired trip units (R122) and the admin engine
(R140, R173, R184). No command of this block stops it, so a safe run is one whose states keep the invariants.
-/

namespace Sys2Proof.Machine

/-- The command completes with this next state. -/
def Completes (c : Instr) (s t : State) : Prop := exec c s = .next t

/-! ## Premises -/

/-- The admin engine's read of the command at a position is in flight in READY: its error-free completion takes the command (R168). -/
def State.takes (s : State) (pos : Nat) : Prop :=
  s.port.dev = .ready ∧ s.admin.engine = .fetching pos ∧ (s.readOf .admin).isSome

/-- The command that is taken now, as the engine holds it (R167). -/
def State.inHand (s : State) (pos : Nat) (id : BitVec 16) (c : Command) : InHand :=
  { pos := pos, id := id, command := c, taking := s.time }

/-- The state in which a taken command acts: its read has completed. -/
abbrev State.taken (s : State) : State := s.dropRead .admin

/-- The device is READY or HALTED: it takes POST and RLSE writes, and it can enter FAULTED. -/
def State.live (s : State) : Prop := s.port.dev = .ready ∨ s.port.dev = .halted

/-- The number is a power of two between two limits. -/
def PowerBetween (least most n : Nat) : Prop := least ≤ n ∧ n ≤ most ∧ ∃ k, n = 2 ^ k

/-- The code of the first check of RUN validation that fails, for the queue registers as they stand (R182). -/
def RunChecks (p : Port) (e : ConfigError) : Prop :=
  (¬PowerBetween 4 256 p.aqsz.toNat → e = .aqSize)
  ∧ (PowerBetween 4 256 p.aqsz.toNat → ¬64 ∣ (p.aqbh ++ p.aqbl).toNat → e = .aqBase)
  ∧ (PowerBetween 4 256 p.aqsz.toNat → 64 ∣ (p.aqbh ++ p.aqbl).toNat → ¬PowerBetween 16 4096 p.r0sz.toNat → e = .rq0Size)
  ∧ (PowerBetween 4 256 p.aqsz.toNat → 64 ∣ (p.aqbh ++ p.aqbl).toNat → PowerBetween 16 4096 p.r0sz.toNat →
      ¬32 ∣ (p.r0bh ++ p.r0bl).toNat → e = .rq0Base)
  ∧ (PowerBetween 4 256 p.aqsz.toNat → 64 ∣ (p.aqbh ++ p.aqbl).toNat → PowerBetween 16 4096 p.r0sz.toNat →
      32 ∣ (p.r0bh ++ p.r0bl).toNat → e = .none)

/-- A timed event is due: what it waits for is set and its moment is not later than the device time (R27, R66, R98, R155, R17), or a
pin shows a running line at a level other than its raw level (R99). -/
def EventDue (s : State) (c : Instr) : Prop :=
  (∃ t, c = .startTimeReached t ∧ (s.track t).state = .armed ∧ reached (s.track t).startTime s.time)
    ∨ (∃ t, c = .dueTimerExpiry t ∧ (s.track t).state = .due ∧ reached (s.track t).dueTimer s.time)
    ∨ (∃ t, c = .timeoutTimerExpiry t ∧ (s.track t).state = .inputWait ∧ reached (s.track t).timeoutTimer s.time)
    ∨ (∃ t, c = .holdTimerExpiry t ∧ (s.track t).state = .empty ∧ reached (s.track t).holdTimer s.time)
    ∨ (∃ l, c = .rawChange l (s.pin l) ∧ (s.line l).mode ≠ .off ∧ (s.line l).raw ≠ s.pin l)
    ∨ (∃ l, c = .windowExpiry l ∧ reached (s.line l).windowTimer s.time)
    ∨ (∃ q, c = .delayTimerExpiry q ∧ reached (s.rq q).irq.timer s.time)
    ∨ (∃ r, c = .readTimeout r.who ∧ r ∈ s.link.reads ∧ reached (some (r.issued + Config.readLimit)) s.time)

/-! ## Samples and acceptances -/

/-- The sampler takes a raw change of this line in this tick: it has taken none, and the level is not the readback of a claim of this
tick (R99; log entry 24). -/
def State.sampleTaken (s : State) (l : LineId) (level : Level) : Prop :=
  s.sampler.changed[l] = false
    ∧ ((s.line l).drive = s.sampler.drives[l] ∨ s.sampler.pins[l] = level
        ∨ ((s.line l).drive ≠ .float ∧ (s.line l).drive ≠ driveOf level))

/-- The state in which a raw change is judged: its pin and its sample are recorded. -/
abbrev State.sampled (s : State) (l : LineId) (level : Level) : State :=
  { s with pins := s.pins.set l level, sampler := { s.sampler with changed := s.sampler.changed.set l true } }

/-- A consumer that an acceptance on this line gives something to do (R105): the capture stage unless its mode is NONE, an ARMED unit of
the line, a track in INPUT-WAIT on a WAIT of the line. -/
def State.concerns (s : State) (l : LineId) : Consumer → Prop
  | .capture => (s.line l).captureMode ≠ .none
  | .trip u => (s.trip u).state = .armed ∧ (s.trip u).source = l
  | .track k => (s.track k).state = .inputWait ∧ ∃ step, (s.track k).current = some step ∧ recLine step.record = some l

/-- The state after an acceptance record has been handed, in some order, to every consumer it concerns (R105). -/
def HandedOut (l : LineId) (level : Level) (edge : Time) (delay : BitVec 16) (s t : State) : Prop :=
  ∃ (order : List Consumer) (n : Nat), order.Nodup ∧ (∀ x, x ∈ order ↔ s.concerns l x)
    ∧ t = order.foldl (consume l level edge delay) { s with freeIndex := n }

/-! ## The report queues -/

/-- A moderation context as R155 bounds it: the unsignalled count below the threshold, 0 with interrupts disabled, and a delay timer
set only while counted entries wait under a delay. -/
def Moderation.sound (m : Moderation) : Prop :=
  m.unsignalled < m.threshold ∧ m.threshold ≤ 255
    ∧ (m.enable = false → m.unsignalled = 0 ∧ m.timer = none)
    ∧ (m.timer ≠ none → m.unsignalled ≠ 0 ∧ m.delay ≠ 0)

/-- A table entry: at its reset values while ABSENT; otherwise its indices lie in a ring of a legal size and base, the lap flag is set
only when they meet (R133, R135), and an overflow is pending only while the free slots do not exceed the reserve (R142). -/
def ReportQueue.sound (q : QueueId) (c : ReportQueue) : Prop :=
  (c.state = .absent → c = ReportQueue.absent)
    ∧ (c.state ≠ .absent →
        PowerBetween 16 4096 c.size ∧ c.base.toNat % 32 = 0 ∧ c.write < c.size ∧ c.release < c.size
          ∧ (c.lap = true → c.write = c.release)
          ∧ (overflowPending c = true → freeSlots c ≤ reserve q)
          ∧ c.irq.sound)

/-- Every report queue is sound. -/
def State.queuesSound (s : State) : Prop := ∀ q, (s.rq q).sound q

/-! ## The lines -/

/-- A line cell: its mode decides its drive and whether its conditioner runs (R83), its owner is present only in TRACK mode (R82), a
pending change is one towards the raw level with its timer set (R98), and the edge times are absent with capture mode NONE (R107). -/
def Line.sound (c : Line) : Prop :=
  (c.mode = .off → c.drive = .float ∧ c.pendingStart = none ∧ c.windowTimer = none)
    ∧ (c.mode = .input → c.drive = .float)
    ∧ (c.mode = .static → c.drive = driveOf c.staticLevel)
    ∧ (c.owner.isSome ↔ c.mode = .track)
    ∧ (c.mode ≠ .off → c.pendingStart = none → c.raw = c.accepted ∧ c.windowTimer = none)
    ∧ (c.mode ≠ .off → ∀ start, c.pendingStart = some start →
        c.raw ≠ c.accepted ∧ c.window ≠ 0 ∧ c.windowTimer = some (start + ticksOf c.window))
    ∧ (c.captureMode = .none → c.lastRise = none ∧ c.lastFall = none)

/-- Every line is sound. -/
def State.linesSound (s : State) : Prop := ∀ l, (s.line l).sound

/-- The lanes: a line is in TRACK mode exactly when it has an owner, its owner is a bound track whose lane it is, and every lane of
a bound track is so owned; so no line is a lane of two tracks (R84). -/
def State.lanesSound (s : State) : Prop :=
  (∀ l, (s.line l).owner.isSome ↔ (s.line l).mode = .track)
    ∧ (∀ t, (s.track t).bound → (s.track t).lanes.length ≤ 16)
    ∧ ∀ l o, (s.line l).owner = some o ↔ ((s.track o.track).bound ∧ (s.track o.track).lanes[o.lane.val]? = some l)

/-! ## The tracks -/

/-- A timed record: LEVEL, MARK, WAIT or END (R6). -/
def Timed (r : StepRecord) : Prop :=
  recKind r = some .level ∨ recKind r = some .mark ∨ recKind r = some .wait ∨ recKind r = some .finish

/-- Each timer of a track is set exactly in its own state and for its moment (R27), a start time is held exactly in ARMED (R65), and a
current step stands only in DUE, INPUT-WAIT, PAUSED and SAFE entered from a started flow, being a timed one unless its check failed
(R26, R28, R75). -/
def Track.timersSound (c : Track) : Prop :=
  (c.state ≠ .due → c.dueTimer = none)
    ∧ (c.state = .due → ∃ step d, c.current = some step ∧ step.due = some d ∧ c.dueTimer = some d)
    ∧ (c.state ≠ .inputWait → c.timeoutTimer = none)
    ∧ (c.state = .inputWait → ∃ step w, c.current = some step ∧ step.waitStart = some w ∧
        c.timeoutTimer = if recTimeout step.record = 0 then none else some (w + (recTimeout step.record).setWidth 64))
    ∧ (c.holdTimer.isSome ↔ c.state = .empty ∧ c.holdLimit ≠ 0)
    ∧ (c.startTime.isSome ↔ c.state = .armed)
    ∧ (c.state = .empty → c.current = none ∧ c.prefetch = [])
    ∧ (c.state = .safe → c.safeFrom = some .notStarted → c.current = none)
    ∧ (c.state = .paused → c.current.isSome → c.pausedFrom = some .due ∨ c.pausedFrom = some .inputWait)
    ∧ (∀ step, c.current = some step →
        (c.state = .due ∨ c.state = .inputWait ∨ c.state = .paused ∨ c.state = .safe)
          ∧ (Timed step.record ∨ (c.state = .safe ∧ c.safeCause.any SafeCause.isBadStep)))

/-- Every track's timers are sound. -/
def State.timersSound (s : State) : Prop := ∀ t, (s.track t).timersSound

/-- The records stand at consecutive ring positions and the position after the last is `next` (R12). -/
def ConsecutiveTo (size next : Nat) : List Fetched → Prop
  | [] => True
  | e :: rest =>
    e.pos < size ∧ (e.pos + 1) % size = (match rest with | [] => next | e' :: _ => e'.pos) ∧ ConsecutiveTo size next rest

/-- The prefetch list of a bound track: at most 8 records, at the consecutive positions just before the fetch index (R12); a current
read starts at the fetch index, does not wrap and fits the list (R13, R14). -/
def Track.listSound (c : Track) : Prop :=
  c.bound →
    PowerBetween 4 4096 c.sqSize ∧ c.fetch < c.sqSize ∧ c.post < c.sqSize ∧ c.retire < c.sqSize
      ∧ c.prefetch.length ≤ 8 ∧ ConsecutiveTo c.sqSize c.fetch c.prefetch
      ∧ (∀ step, c.current = some step → step.pos < c.sqSize)
      ∧ (∀ l, c.loop = some l → l.start = (l.pos + 1) % c.sqSize ∧ l.pos < c.sqSize ∧ l.remaining ≠ 0)
      ∧ (∀ r, c.read = some r → r.stale = false →
          r.start = c.fetch ∧ r.start + r.count ≤ c.sqSize ∧ c.prefetch.length + r.count ≤ 8)

/-- Every track's list is sound. -/
def State.listsSound (s : State) : Prop := ∀ t, (s.track t).listSound

/-- 1 for a present current step, 0 without one. -/
def Track.held (c : Track) : Nat := if c.current.isSome then 1 else 0

/-- The ring order of a bound track: retire, fetch and post lie in that order, and a current read covers posted positions (R1, R13).
With no loop the held span from the retire index to the fetch index is the current step and the list; with a loop the retire index is
the LOOP position and the span holds them too (R45). The position after the current step is the next position (R28). -/
def Track.orderSound (c : Track) : Prop :=
  c.bound →
    ringDist c.sqSize c.fetch c.retire ≤ ringDist c.sqSize c.post c.retire
      ∧ (∀ r, c.read = some r → r.stale = false → r.count ≤ ringDist c.sqSize c.post c.fetch)
      ∧ (c.loop = none → ringDist c.sqSize c.fetch c.retire = c.held + c.prefetch.length)
      ∧ (∀ l, c.loop = some l →
          c.retire = l.pos ∧ c.held + c.prefetch.length + 1 ≤ ringDist c.sqSize c.fetch c.retire)
      ∧ (∀ step, c.current = some step → (step.pos + 1) % c.sqSize = c.nextPos)

/-- Every track's ring order is sound. -/
def State.ordersSound (s : State) : Prop := ∀ t, (s.track t).orderSound

/-! ## The trip units -/

/-- While a trip unit is FIRED, no track in its mask is ARMED, DUE, INPUT-WAIT, EMPTY or PAUSED (R122). -/
def State.tripsHold (s : State) : Prop :=
  ∀ u t, (s.trip u).state = .fired → (s.trip u).mask.getLsbD t.val = true →
    (s.track t).state = .unbound ∨ (s.track t).state = .stopped ∨ (s.track t).state = .safe

/-! ## The admin engine -/

/-- The engine is in WAIT-SLOT. -/
def Engine.isWaitSlot : Engine → Bool
  | .waitSlot _ => true
  | .idleWait => false
  | .fetching _ => false
  | .executing _ _ _ => false
  | .writing _ => false

/-- The admin engine holds a command only in READY (R175, R184); READY with the run request withdrawn is a command on its way to its
end, and HALTED has the run request withdrawn (R184); an ADMIN-DONE waits exactly in WAIT-SLOT, and then RQ0 has no free slot (R140,
R173). -/
def State.adminSound (s : State) : Prop :=
  (s.admin.engine ≠ .idleWait → s.port.dev = .ready)
    ∧ (s.port.dev = .ready → s.port.run = false → s.admin.engine ≠ .idleWait)
    ∧ (s.port.dev = .halted → s.port.run = false)
    ∧ (s.waiting.isSome ↔ s.admin.engine.isWaitSlot)
    ∧ (s.waiting.isSome → freeSlots (s.rq 0) = 0)

end Sys2Proof.Machine
end

