-- ==== Sys2Proof/Certificates/Slice0/Obligations.lean ====
section
/-!
DEFINITION. The statements for the provers. Each docstring names the rules a statement formalises, and the log entry where it
rests on a choice of the model. The premise `State.takes` is that of an admin command's own event: its read is in flight in READY
(R168). Where a command answers, the statement gives the state `s2` its effects leave and says that the answer is handed there;
AdminDoneHanded says what a handed answer does.
-/

open Sys2Proof Sys2Proof.Machine

/-! ## The step -/

/-- Takes the place of "a step runs the decoded instruction": the front of the queue runs on the state with the queue's rest. -/
def Obligations.StepRunsFrontCommand : Prop :=
  ∀ (c : Instr) (rest : List Instr) (s : State), s.pending = c :: rest → step s = exec c { s with pending := rest }

/-- An empty queue: the device time rises by one (R180), the sampler notes the pins and the drives of the tick (R99), and exactly the
events now due wait in the queue, so that no set timer is passed (R27). That a step with nothing waiting is a tick, that due events
come through the queue, and the form of the sampler are the model's choices (log entries 1, 2, 4 and 24). -/
def Obligations.EmptyQueueTicks : Prop :=
  ∀ s : State, s.pending = [] →
    ∃ t, step s = .next t
      ∧ t = { s with time := s.time + 1, sampler := t.sampler, freeIndex := t.freeIndex, pending := t.pending }
      ∧ t.sampler.pins = s.pins
      ∧ (∀ l : LineId, t.sampler.drives[l] = (s.line l).drive ∧ t.sampler.changed[l] = false)
      ∧ ∀ c, c ∈ t.pending ↔ EventDue { s with time := s.time + 1 } c

/-- Every command answers a next state, in every state: the spec lets no command stop the block. No command changes the queue of waiting
commands, and of all commands only a power-on sets the device time, to 0 (R180). -/
def Obligations.CommandsKeepQueueAndTime : Prop :=
  ∀ (c : Instr) (s : State), ∃ t, Completes c s t ∧ t.pending = s.pending ∧ t.time = if c = .powerOn then 0 else s.time

/-! ## Power-on and the resets -/

/-- POWER_ON (R181, R190, R82, R26, R117, R133, R164): device time 0, IDLE with every register 0, every block at its power-on values and
nothing in flight. What is outside the part stays (log entry 8), and the late policy that an UNBOUND track is given is the model's
(log entry 7). -/
def Obligations.PowerOnState : Prop :=
  ∀ s : State, ∃ t, Completes .powerOn s t
    ∧ t.time = 0 ∧ t.port.dev = .idle ∧ t.port.run = false ∧ t.port.configError = .none ∧ t.port.faultCause = .none
    ∧ t.port.aqbl = 0 ∧ t.port.aqbh = 0 ∧ t.port.aqsz = 0 ∧ t.port.r0bl = 0 ∧ t.port.r0bh = 0 ∧ t.port.r0sz = 0
    ∧ t.port.timh = 0
    ∧ (∀ k, t.track k = Track.powerOn) ∧ (∀ l, t.line l = Line.powerOn) ∧ (∀ u, t.trip u = Trip.afterReset)
    ∧ (∀ q, t.rq q = ReportQueue.absent) ∧ t.waiting = none ∧ t.admin = Admin.afterReset ∧ t.lastGranted = 7
    ∧ t.link.reads = [] ∧ t.link.writes = [] ∧ (∀ v : VectorId, t.link.marks[v] = false)
    ∧ t.pins = s.pins ∧ t.link.masked = s.link.masked ∧ t.link.msiAllowed = s.link.msiAllowed ∧ t.link.out = s.link.out

/-- The blocks at the start of RESETTING (R189 and the rules it names), for a port reset and a soft reset alike; the line array is in
ResetParksLines. That a track keeps its ring's base and size, its late policy, tolerance and hold limit, and that the pins, the
masks, what was handed to the link and the last value read stay, is the model's choice (log entries 19 and 8).
How RESETTING begins and how long it lasts (R190): a port reset abandons everything and is over at once; a soft reset keeps the
writes in flight and of the reads only those already carried, and is over at once only with nothing in flight. Which reads were not
yet carried is free (log entry 5). That a port reset abandons a retire-word write with the others is the model's reading of R190
against R25 (log entry 28). -/
def Obligations.ResetBlocksAndDrain : Prop :=
  (∀ (c : Instr) (s : State), (c = .portReset ∨ ∃ run, c = .ctrlReset run) → s.port.dev ≠ .resetting →
      ∃ t, Completes c s t
        ∧ t.time = s.time ∧ t.pins = s.pins ∧ t.link.out = s.link.out ∧ t.link.masked = s.link.masked
        ∧ (∀ k : TrackId, t.track k =
            { s.track k with
              state := .unbound, pausedFrom := none, safeCause := none, safeFrom := none, current := none, loop := none,
              stopReq := none, startTime := none, dueTimer := none, timeoutTimer := none, holdTimer := none,
              epoch := (s.track k).epoch + 1, prefetch := [], read := none, retireAddr := 0, retireWrite := none })
        ∧ (∀ u, t.trip u = Trip.afterReset) ∧ (∀ q, t.rq q = ReportQueue.absent) ∧ t.waiting = none
        ∧ t.admin = { base := 0, size := 0, post := 0, taken := 0, engine := .idleWait }
        ∧ t.lastGranted = 7 ∧ (∀ v : VectorId, t.link.marks[v] = false)
        ∧ t.port = { Port.powerOn with dev := t.port.dev, readData := s.port.readData })
    ∧ ∀ (c : Instr) (s : State), s.port.dev ≠ .resetting →
      (c = .portReset → ∃ t, Completes c s t ∧ t.link.reads = [] ∧ t.link.writes = [] ∧ t.port.dev = .idle)
      ∧ ∀ run, c = .ctrlReset run → ∃ t, Completes c s t ∧ t.link.writes = s.link.writes
          ∧ t.link.reads.Sublist s.link.reads
          ∧ t.port.dev = if t.link.reads = [] ∧ t.link.writes = [] then .idle else .resetting

/-- R94 to R96: at a port or soft reset STATIC and TRACK lines park at their safe-mode results, every other field but mode and drive
returns to its default, and the conditioner of a line that is not OFF restarts from the pin without an acceptance.
The safe-mode results of R86. -/
def Obligations.ResetParksLines : Prop :=
  (∀ (c : Instr) (s : State), (c = .portReset ∨ ∃ run, c = .ctrlReset run) → s.port.dev ≠ .resetting →
      ∃ t, Completes c s t ∧ ∀ l : LineId,
        ((s.line l).mode = .off → t.line l = Line.powerOn)
        ∧ ((s.line l).mode = .input → t.line l = { Line.powerOn with mode := .input, raw := s.pin l, accepted := s.pin l })
        ∧ ((s.line l).mode = .static ∨ (s.line l).mode = .track → t.line l =
            { Line.powerOn with
              mode := .parked, drive := safeResult (s.line l).safeMode (s.line l).drive, raw := s.pin l, accepted := s.pin l })
        ∧ ((s.line l).mode = .parked → t.line l =
            { Line.powerOn with mode := .parked, drive := (s.line l).drive, raw := s.pin l, accepted := s.pin l }))
    ∧ ∀ d : Drive, safeResult .hold d = d ∧ safeResult .float d = .float ∧ safeResult .low d = .low ∧ safeResult .high d = .high

/-- What reaches the part in RESETTING changes nothing: register writes, a further soft reset and the fetch unit's grant (R179, R185,
R186, R189, R190); a port reset abandons the rest of the drain, which ends RESETTING (R190; for a retire-word write the model's
reading, log entry 28). That the TIMH latch reads 0 after that
port reset follows R180; that the blocks are not reset again is the model's reading (log entry 9).
R190: a completion of any read or write taken during RESETTING, with or without error, acts on no block, and a read that reaches its
limit is abandoned; it leaves the link, and the last one ends RESETTING. -/
def Obligations.ResettingTakesNothing : Prop :=
  (∀ s : State, s.port.dev = .resetting →
      (∀ run, Completes (.ctrlReset run) s s) ∧ (∀ run, Completes (.ctrlRun run) s s)
      ∧ (∀ selector index, Completes (.post selector index) s s) ∧ (∀ queue index, Completes (.rlse queue index) s s)
      ∧ (∀ offset width value, Completes (.registerWrite offset width value) s s) ∧ Completes .readIssue s s
      ∧ Completes .portReset s
          { s with port := { s.port with dev := .idle, timh := 0 }, link := { s.link with reads := [], writes := [] } })
    ∧ ∀ s : State, s.port.dev = .resetting →
      let drains := fun (c : Instr) (reads : List PendingRead) (writes : List PendingWrite) =>
        Completes c s { s with link := { s.link with reads := reads, writes := writes }, port := { s.port with
          dev := if reads = [] ∧ writes = [] then .idle else .resetting } }
      let readDone := fun (c : Instr) (who : Requester) => drains c (s.link.reads.eraseP fun r => r.who == who) s.link.writes
      let writeDone := fun (c : Instr) (p : WritePurpose → Bool) => drains c s.link.reads (s.link.writes.eraseP fun w => p w.purpose)
      (∀ k : TrackId, (s.readOf (.track k)).isSome →
          (∀ data, readDone (.stepReadCompletion k data) (.track k)) ∧ readDone (.stepReadError k) (.track k))
      ∧ ((s.readOf .admin).isSome →
          (∀ record, readDone (.adminReadCompletion record) .admin) ∧ readDone .adminReadError .admin
          ∧ ∀ id c, (∀ opcode, c = .unknown opcode → opcodeNamed opcode = false) → readDone (Instr.ofCommand id c) .admin)
      ∧ (∀ who r, s.readOf who = some r → r.issued + 1000000 ≤ s.time → readDone (.readTimeout who) who)
      ∧ (∀ q : QueueId, (s.writeOf (WritePurpose.isEntryOf q)).isSome →
          writeDone (.entryWriteCompletion q) (WritePurpose.isEntryOf q) ∧ writeDone (.entryWriteError q) (WritePurpose.isEntryOf q))
      ∧ (∀ k : TrackId, (s.writeOf (WritePurpose.isRetireWordOf k)).isSome →
          writeDone (.retireWordWriteDone k) (WritePurpose.isRetireWordOf k)
          ∧ writeDone (.retireWordWriteError k) (WritePurpose.isRetireWordOf k))
      ∧ ((s.writeOf WritePurpose.isBuffer).isSome → ∀ error, writeDone (.bufferWriteCompletion error) WritePurpose.isBuffer)

/-! ## The register window -/

/-- A read of TIML returns the low 32 bits of the device time and copies the high 32 bits of the same time into the TIMH latch; a read
of TIMH returns the latch, and the two halves make one device time (R180). -/
def Obligations.TimlReadLatchesTimh : Prop :=
  ∀ s : State, ∃ t, Completes .timlRead s t
    ∧ t = { s with port := { s.port with readData := t.port.readData, timh := t.port.timh } }
    ∧ readRegister 0x30 .word t ++ t.port.readData = s.time ∧ t.port.readData = readRegister 0x2C .word s

/-- R179, R182: in IDLE a word write of a queue register takes every value, is read back, and changes nothing else; out of IDLE, and at
any other offset without a row of its own, and in a narrower access, a write is ignored.
R196, R189, R185, R186: a word write of CTRL, POST or RLSE is the command its bits spell: RESET is bit 1 and RUN bit 0 of CTRL, the
selector or queue number bits 19 to 16 and the index bits 15 to 0 of POST and RLSE. That such a REGISTER_WRITE is the event of that
row is the model's reading (log entry 14). -/
def Obligations.RegisterWrites : Prop :=
  (∀ (offset value : BitVec 32) (s : State),
      (s.port.dev = .idle → (offset = 0x0C ∨ offset = 0x10 ∨ offset = 0x14 ∨ offset = 0x18 ∨ offset = 0x1C ∨ offset = 0x20) →
        ∃ t, Completes (.registerWrite offset .word value) s t
          ∧ readRegister offset .word t = value
          ∧ (∀ other, other ≠ offset → readRegister other .word t = readRegister other .word s)
          ∧ t = { s with port := t.port })
      ∧ (offset ≠ 0x04 → offset ≠ 0x24 → offset ≠ 0x28 →
          (s.port.dev ≠ .idle ∨ ¬(offset = 0x0C ∨ offset = 0x10 ∨ offset = 0x14 ∨ offset = 0x18 ∨ offset = 0x1C ∨ offset = 0x20)) →
          Completes (.registerWrite offset .word value) s s)
      ∧ Completes (.registerWrite offset .half value) s s ∧ Completes (.registerWrite offset .byte value) s s)
    ∧ ∀ (value : BitVec 32) (s : State),
      exec (.registerWrite 0x04 .word value) s
          = (if value.getLsbD 1 then exec (.ctrlReset (value.getLsbD 0)) s else exec (.ctrlRun (value.getLsbD 0)) s)
      ∧ exec (.registerWrite 0x24 .word value) s = exec (.post (value.extractLsb' 16 4) (value.extractLsb' 0 16)) s
      ∧ exec (.registerWrite 0x28 .word value) s = exec (.rlse (value.extractLsb' 16 4) (value.extractLsb' 0 16)) s

/-- CTRL_RUN in IDLE (R182, R183): RUN 0 clears the run request; RUN 1 validates in the order of R182, and a failed check leaves IDLE
with its code and RUN 0, while a pass makes the device READY with the admin queue and RQ0 set up from the registers.
CTRL_RUN in READY, HALTED and FAULTED (R184), row by row. -/
def Obligations.RunRequest : Prop :=
  (∀ s : State, s.port.dev = .idle →
      Completes (.ctrlRun false) s { s with port := { s.port with run := false } }
      ∧ ∃ e, RunChecks s.port e
          ∧ (e ≠ .none → Completes (.ctrlRun true) s { s with port := { s.port with run := false, configError := e } })
          ∧ (e = .none → ∃ t, Completes (.ctrlRun true) s t
              ∧ t.port = { s.port with dev := .ready, run := true, configError := .none }
              ∧ t.admin = { base := s.port.aqbh ++ s.port.aqbl, size := s.port.aqsz.toNat, post := 0, taken := 0, engine := .idleWait }
              ∧ t.rq 0 = { ReportQueue.absent with
                  state := .active, base := s.port.r0bh ++ s.port.r0bl, size := s.port.r0sz.toNat, pass := true }
              ∧ (∀ q, q ≠ 0 → t.rq q = s.rq q) ∧ t = { s with port := t.port, admin := t.admin, rqs := t.rqs }))
    ∧ ∀ s : State,
      (s.port.dev = .ready → Completes (.ctrlRun true) s { s with port := { s.port with run := true } })
      ∧ (s.port.dev = .ready → s.port.run = true → s.admin.engine = .idleWait →
          Completes (.ctrlRun false) s { s with port := { s.port with run := false, dev := .halted } })
      ∧ (s.port.dev = .ready → s.port.run = true → s.admin.engine ≠ .idleWait →
          Completes (.ctrlRun false) s { s with port := { s.port with run := false } })
      ∧ (s.port.dev = .ready → s.port.run = false → Completes (.ctrlRun false) s s)
      ∧ (s.port.dev = .halted → Completes (.ctrlRun true) s { s with port := { s.port with run := true, dev := .ready } })
      ∧ (s.port.dev = .halted → Completes (.ctrlRun false) s s)
      ∧ (s.port.dev = .faulted → ∀ run, Completes (.ctrlRun run) s s)

/-- POST of the admin queue (R165, R185): accepted when the index is in the ring and the posted count with the new positions is at most
size − 1; otherwise refused, with a POST-REFUSED of source 0 for RQ0; ignored unless READY or HALTED.
POST of a sequence queue (R2, R185): selector k + 1 names track k; the same check against its ring, in every bound state; a post to
an UNBOUND track, a post that fails the check and a selector above 8 are refused with a POST-REFUSED naming the selector.
The ring distance of the statements is subtraction modulo the ring size (00_scope.md, Rings). -/
def Obligations.PostChecked : Prop :=
  (∀ (index : BitVec 16) (s : State),
      let fits := index.toNat < s.admin.size
        ∧ ringDist s.admin.size s.admin.post s.admin.taken + ringDist s.admin.size index.toNat s.admin.post ≤ s.admin.size - 1
      (s.live → fits → Completes (.post 0 index) s { s with admin := { s.admin with post := index.toNat } })
      ∧ (s.live → ¬fits → Completes (.post 0 index) s
          (handReport 0 { source := 0, tag := 0, time := s.time, body := .postRefused index } s))
      ∧ (¬s.live → Completes (.post 0 index) s s))
    ∧ (∀ (k : TrackId) (index : BitVec 16) (s : State), s.live →
      let c := s.track k
      let fits := c.state ≠ .unbound ∧ index.toNat < c.sqSize
        ∧ ringDist c.sqSize c.post c.retire + ringDist c.sqSize index.toNat c.post ≤ c.sqSize - 1
      (fits → Completes (.post (BitVec.ofNat 4 (k.val + 1)) index) s (s.setTrack k { c with post := index.toNat }))
      ∧ (¬fits → Completes (.post (BitVec.ofNat 4 (k.val + 1)) index) s
          (handReport 0 { source := BitVec.ofNat 8 (k.val + 1), tag := 0, time := s.time, body := .postRefused index } s))
      ∧ (∀ selector : BitVec 4, 8 < selector.toNat → Completes (.post selector index) s
          (handReport 0 { source := selector.setWidth 8, tag := 0, time := s.time, body := .postRefused index } s)))
    ∧ ∀ size a b : Nat, 0 < size → ((ringDist size a b : Nat) : Int) = ((a : Int) - (b : Int)) % (size : Int)

/-! ## The report queues and interrupts -/

/-- The report writer's decision for a report other than ADMIN-DONE, and what follows it (R137, R138, R141): dropped in FAULTED and for
an ABSENT or closing queue; counted in its class for a FAILED queue, and for an ACTIVE one without room above its reserve or with an
overflow pending; otherwise posted at the write index with the pass bit and sequence number, one entry write of it issued.
The class in which each kind of report is counted, and the saturation of each count at 65535 (R136, R141).
The 64-bit sum of an address wraps by the model's choice (log entry 29). -/
def Obligations.ReportDecision : Prop :=
  (∀ (q : QueueId) (r : Report) (s : State),
      let c := s.rq q
      let room := reserve q < freeSlots c ∧ c.counts = OverflowCounts.zero
      let dropped := s.port.dev = .faulted ∨ c.state = .absent ∨ c.closing = true
      (dropped → handReport q r s = s)
      ∧ (¬dropped → (c.state = .failed ∨ ¬room) → handReport q r s = s.setRq q { c with counts := c.counts.lose r.body })
      ∧ (¬dropped → c.state = .active → room →
          ∃ t, handReport q r s = t
            ∧ t.link.writes = s.link.writes ++ [{ addr := c.base + 32 * BitVec.ofNat 64 c.write,
                                                  data := encodeEntry c.pass c.seq r, purpose := .entry q c.write c.seq }]
            ∧ (t.rq q).write = (c.write + 1) % c.size ∧ (t.rq q).seq = c.seq + 1
            ∧ (t.rq q).pass = (if (c.write + 1) % c.size = 0 then !c.pass else c.pass)
            ∧ ((c.write + 1) % c.size = c.release → (t.rq q).lap = true)
            ∧ (t.rq q).inFlight = c.inFlight + 1
            ∧ t.rq q = { c with write := (t.rq q).write, seq := (t.rq q).seq, pass := (t.rq q).pass, lap := (t.rq q).lap,
                                inFlight := (t.rq q).inFlight }
            ∧ (∀ q', q' ≠ q → t.rq q' = s.rq q')
            ∧ t = { s with rqs := t.rqs, link := { s.link with writes := t.link.writes, out := t.link.out } }))
    ∧ ∀ c : OverflowCounts,
      let more := fun x : BitVec 16 => if x = 65535 then 65535 else x + 1
      (∀ outcome due pos number retire unreported,
          c.lose (.stepDone outcome due pos number retire unreported) = { c with stepDone := more c.stepDone })
      ∧ (∀ missed level levels delay period width,
          c.lose (.capture missed level levels delay period width) = { c with capture := more c.capture })
      ∧ (∀ event cause pos abandoned retire,
          c.lose (.trackEvent event cause pos abandoned retire) = { c with trackEvent := more c.trackEvent })
      ∧ (∀ cause moved edge, c.lose (.trip cause moved edge) = { c with other := more c.other })
      ∧ (∀ index, c.lose (.postRefused index) = { c with other := more c.other })
      ∧ (∀ index, c.lose (.releaseRefused index) = { c with other := more c.other })
      ∧ ∀ slot number, c.lose (.rqFailed slot number) = { c with other := more c.other }

/-- RLSE in READY or HALTED (R186, R144, R142): a release in the ring and not beyond the write index moves the release index and clears
the lap flag, with one OVERFLOW entry where one was pending and the free slots now exceed the reserve; with no advance it changes
nothing; otherwise it is refused with a RELEASE-REFUSED. A waiting ADMIN-DONE is in ReleasePostsWaiting.
RLSE outside the ring numbers and outside READY and HALTED (R186, R148): a queue number of 8 or more is refused at the register; in
IDLE, FAULTED and RESETTING a release has no effect and makes no report.
The 64-bit sum of an address wraps by the model's choice (log entry 29). -/
def Obligations.ReleaseChecked : Prop :=
  (∀ (q : QueueId) (index : BitVec 16) (s : State), s.live → (q ≠ 0 ∨ s.waiting = none) →
      let c := s.rq q
      let ok := c.state ≠ .absent ∧ c.closing = false ∧ index.toNat < c.size
        ∧ ringDist c.size index.toNat c.release ≤ outstanding c
      let c' := { c with release := index.toNat, lap := false }
      let due := overflowPending c = true ∧ reserve q < freeSlots c'
      let row := Instr.rlse (BitVec.ofNat 4 q.val) index
      (ok → ringDist c.size index.toNat c.release = 0 → Completes row s s)
      ∧ (ok → ringDist c.size index.toNat c.release ≠ 0 → ¬due → Completes row s (s.setRq q c'))
      ∧ (ok → ringDist c.size index.toNat c.release ≠ 0 → due → ∃ t, Completes row s t
          ∧ t.link.writes = s.link.writes ++ [{
              addr := c.base + 32 * BitVec.ofNat 64 c.write
              data := encodeEntry c.pass c.seq
                { source := BitVec.ofNat 8 q.val, tag := 0, time := s.time, body := .overflow c.counts }
              purpose := .entry q c.write c.seq }]
          ∧ (t.rq q).counts = OverflowCounts.zero ∧ (t.rq q).release = index.toNat
          ∧ (t.rq q).write = (c.write + 1) % c.size ∧ (t.rq q).seq = c.seq + 1
          ∧ t.rq q = { c with release := index.toNat, counts := OverflowCounts.zero, write := (t.rq q).write, seq := (t.rq q).seq,
                              pass := (t.rq q).pass, lap := (t.rq q).lap, inFlight := c.inFlight + 1 }
          ∧ (∀ q', q' ≠ q → t.rq q' = s.rq q')
          ∧ t = { s with rqs := t.rqs, link := { s.link with writes := t.link.writes, out := t.link.out } })
      ∧ (¬ok → Completes row s
          (handReport 0 { source := BitVec.ofNat 8 q.val, tag := 0, time := s.time, body := .releaseRefused index } s)))
    ∧ ∀ (queue : BitVec 4) (index : BitVec 16) (s : State),
      (¬s.live → Completes (.rlse queue index) s s)
      ∧ (s.live → 8 ≤ queue.toNat → Completes (.rlse queue index) s
          (handReport 0 { source := queue.setWidth 8, tag := 0, time := s.time, body := .releaseRefused index } s))

/-- R140, R142, R173: the first release of RQ0 that leaves a free slot posts the waiting ADMIN-DONE in its event, and the engine leaves
WAIT-SLOT: the taken index advances, and a device whose run request is withdrawn becomes HALTED (R184). With an overflow pending and
more free slots than the reserve, the OVERFLOW entry takes the first slot and the counts return to 0; the ADMIN-DONE takes the next
one. With an overflow pending and no more free slots than the reserve, the ADMIN-DONE alone is posted.
The 64-bit sum of an address wraps by the model's choice (log entry 29). -/
def Obligations.ReleasePostsWaiting : Prop :=
  ∀ (index : BitVec 16) (r : Report) (h : InHand) (s : State), s.port.dev = .ready → s.waiting = some r →
    s.admin.engine = .waitSlot h → releaseOk (s.rq 0) index.toNat = true →
    ringDist (s.rq 0).size index.toNat (s.rq 0).release ≠ 0 →
    1 ≤ freeSlots { s.rq 0 with release := index.toNat, lap := false } →
      let c := s.rq 0
      let overflow := overflowPending c = true ∧ 2 ≤ freeSlots { c with release := index.toNat, lap := false }
      let next := (c.write + 1) % c.size
      let nextPass := if next = 0 then !c.pass else c.pass
      let lost : Report := { source := 0, tag := 0, time := s.time, body := .overflow c.counts }
      let entry := fun (slot : Nat) (pass : Bool) (seq : BitVec 16) (r' : Report) =>
        ({ addr := c.base + 32 * BitVec.ofNat 64 slot, data := encodeEntry pass seq r', purpose := .entry 0 slot seq } : PendingWrite)
      ∃ t, Completes (.rlse 0 index) s t
        ∧ t.waiting = none
        ∧ t.admin = { s.admin with taken := (h.pos + 1) % s.admin.size, engine := .idleWait }
        ∧ t.port = { s.port with dev := if s.port.run then .ready else .halted }
        ∧ t.link.writes = s.link.writes ++ (if overflow then [entry c.write c.pass c.seq lost, entry next nextPass (c.seq + 1) r]
            else [entry c.write c.pass c.seq r])
        ∧ (t.rq 0).release = index.toNat ∧ (t.rq 0).write = (if overflow then (next + 1) % c.size else next)
        ∧ (t.rq 0).seq = (if overflow then c.seq + 2 else c.seq + 1)
        ∧ (t.rq 0).counts = (if overflow then OverflowCounts.zero else c.counts)
        ∧ (t.rq 0).inFlight = (if overflow then c.inFlight + 2 else c.inFlight + 1)
        ∧ (∀ q, q ≠ 0 → t.rq q = s.rq q)
        ∧ t.tracks = s.tracks ∧ t.lines = s.lines ∧ t.trips = s.trips

/-- ENTRY_WRITE_COMPLETION (R145, R156, R157): the writes in flight fall by one, and with interrupts enabled the entry is counted: a
first entry under a delay sets the delay timer, and the entry that reaches the threshold sends one message on the queue's vector,
which clears the count and the timer; a masked vector keeps a mark instead (R162). In FAULTED nothing is counted (R148). A closing
queue whose last write this is counts it first, is then ABSENT with every field at its reset value, and the DELETE-RQ that waits for
it is answered (R151, R161), or after an entry into FAULTED is not (R175). -/
def Obligations.EntryWriteCounts : Prop :=
  ∀ (q : QueueId) (s : State), s.port.dev ≠ .resetting → (s.writeOf (WritePurpose.isEntryOf q)).isSome → (s.rq q).state ≠ .absent →
    let c := s.rq q
    let m := c.irq
    let counted := s.port.dev ≠ .faulted ∧ m.enable = true
    let reaches := m.unsignalled + 1 = m.threshold
    let last := c.closing = true ∧ c.inFlight ≤ 1
    ∃ s2 : State,
      (¬last → Completes (.entryWriteCompletion q) s s2)
      ∧ (last → ∀ h result, s.admin.engine = .executing h q result →
          Completes (.entryWriteCompletion q) s (handAdminDone h .ok (some result) (s2.setRq q ReportQueue.absent)))
      ∧ (last → s.admin.engine = .idleWait → Completes (.entryWriteCompletion q) s (s2.setRq q ReportQueue.absent))
      ∧ s2.link.writes = s.link.writes.eraseP (fun w => w.purpose.isEntryOf q)
      ∧ (∀ q', q' ≠ q → s2.rq q' = s.rq q')
      ∧ s2 = { s with rqs := s2.rqs, link := { s.link with writes := s2.link.writes, out := s2.link.out, marks := s2.link.marks } }
      ∧ s2.rq q = { c with inFlight := c.inFlight - 1, irq := (s2.rq q).irq }
      ∧ (¬counted → (s2.rq q).irq = m ∧ s2.link.out = s.link.out ∧ s2.link.marks = s.link.marks)
      ∧ (counted → ¬reaches → s2.link.out = s.link.out ∧ s2.link.marks = s.link.marks ∧ (s2.rq q).irq = { m with
            unsignalled := m.unsignalled + 1
            timer := if m.unsignalled = 0 ∧ m.delay ≠ 0 then some (s.time + ticksOf m.delay) else m.timer })
      ∧ (counted → reaches → (s2.rq q).irq = { m with unsignalled := 0, timer := none })
      ∧ (counted → reaches → s.link.msiAllowed = true → s.link.masked[m.vector] = false →
          s2.link.out = s.link.out ++ [.message m.vector] ∧ s2.link.marks = s.link.marks)
      ∧ (counted → reaches → s.link.msiAllowed = true → s.link.masked[m.vector] = true →
          s2.link.out = s.link.out ∧ s2.link.marks = s.link.marks.set m.vector true)
      ∧ (counted → reaches → s.link.msiAllowed = false → s2.link.out = s.link.out ∧ s2.link.marks = s.link.marks)

/-- ENTRY_WRITE_ERROR of RQ1 to RQ7 (R147): an ACTIVE queue becomes FAILED with its indices kept and an RQ-FAILED for RQ0 naming the
slot and sequence number of the failed write; on a FAILED queue, and in FAULTED (R148), the writes in flight fall and nothing else
happens. A closing queue whose last write this is does the same and is then ABSENT with every field at its reset value; the
DELETE-RQ that waits for it is answered after the RQ-FAILED, with the result fixed at its taking (R151), or after an entry into
FAULTED is not (R148, R175). -/
def Obligations.EntryWriteErrorFailsQueue : Prop :=
  ∀ (q : QueueId) (w : PendingWrite) (slot : Nat) (seq : BitVec 16) (s : State), q ≠ 0 →
    s.port.dev ≠ .resetting → s.writeOf (WritePurpose.isEntryOf q) = some w → w.purpose = .entry q slot seq →
    let s1 := s.dropWrite (WritePurpose.isEntryOf q)
    let c := { s.rq q with inFlight := (s.rq q).inFlight - 1 }
    let last := (s.rq q).closing = true ∧ (s.rq q).inFlight ≤ 1
    let ends := fun s2 : State =>
      (¬last → Completes (.entryWriteError q) s s2)
      ∧ (last → ∀ h result, s.port.dev ≠ .faulted → s.admin.engine = .executing h q result →
          Completes (.entryWriteError q) s (handAdminDone h .ok (some result) (s2.setRq q ReportQueue.absent)))
      ∧ (last → s.admin.engine = .idleWait → Completes (.entryWriteError q) s (s2.setRq q ReportQueue.absent))
    (s.port.dev ≠ .faulted → (s.rq q).state = .active → ends
        (handReport 0 { source := BitVec.ofNat 8 q.val, tag := 0, time := s.time, body := .rqFailed slot seq }
          (s1.setRq q { c with state := .failed })))
    ∧ (s.port.dev ≠ .faulted → (s.rq q).state = .failed → ends (s1.setRq q c))
    ∧ (s.port.dev = .faulted → ends (s1.setRq q c))

/-- DELAY_TIMER_EXPIRY (R158, R157): a message on the queue's vector, the count 0 and the timer idle; a masked vector keeps one pending
mark instead, and messages that are not allowed are dropped (R162).
VECTOR_MASK and VECTOR_UNMASK (R162): a mask changes the mask alone; an unmask with the mark set sends one message and clears the
mark, and without it sends nothing. The statement is for messages allowed; with messages not allowed an unmask sends nothing (log
entry 18). -/
def Obligations.MessagesAndMasks : Prop :=
  (∀ (q : QueueId) (moment : Time) (s : State), (s.rq q).irq.timer = some moment → moment ≤ s.time →
      let m := (s.rq q).irq
      ∃ t, Completes (.delayTimerExpiry q) s t
        ∧ t.rq q = { s.rq q with irq := { m with unsignalled := 0, timer := none } } ∧ (∀ q', q' ≠ q → t.rq q' = s.rq q')
        ∧ t = { s with rqs := t.rqs, link := t.link }
        ∧ t.link = if s.link.msiAllowed = false then s.link
            else if s.link.masked[m.vector] then { s.link with marks := s.link.marks.set m.vector true }
            else { s.link with out := s.link.out ++ [.message m.vector] })
    ∧ ∀ (v : VectorId) (s : State),
      Completes (.vectorMask v) s { s with link := { s.link with masked := s.link.masked.set v true } }
      ∧ ∃ t, Completes (.vectorUnmask v) s t ∧ t = { s with link := t.link }
          ∧ t.link.masked = s.link.masked.set v false ∧ t.link.marks = s.link.marks.set v false
          ∧ t.link.reads = s.link.reads ∧ t.link.writes = s.link.writes ∧ t.link.msiAllowed = s.link.msiAllowed
          ∧ (s.link.marks[v] = false ∨ s.link.msiAllowed = false → t.link.out = s.link.out)
          ∧ (s.link.marks[v] = true → s.link.msiAllowed = true → t.link.out = s.link.out ++ [.message v])

/-- R193, R191: every report entry is 32 bytes: kind, the pass bit with the marks, sequence number, source, the kind byte, tag, timestamp
and the 16 bytes of its kind, an absent value reading 0.
R195, R178: the 48 bytes of the identity, the 80 of the track status, and the 392 of the snapshot with the 8 of each line.
The codes of R191 that those records show, and the byte order of a field: least significant byte first (R191). -/
def Obligations.RecordBytes : Prop :=
  (∀ (n w : Nat) (x : BitVec w), (leBytes n w x).length = n
      ∧ ∀ i, i < n → (leBytes n w x)[i]? = some ((x >>> (8 * i)).setWidth 8))
    ∧ (∀ (pass : Bool) (seq : BitVec 16) (source : Byte) (tag : BitVec 16) (time : Time),
      let zeros := fun n : Nat => List.replicate n (0 : Byte)
      let n16 := fun n : Nat => leBytes 2 16 (BitVec.ofNat 16 n)
      let reads := fun (body : ReportBody) (kind marks kindByte : Byte) (rest : List Byte) => rest.length = 16 ∧
        encodeEntry pass seq { source := source, tag := tag, time := time, body := body }
          = [kind, (if pass then 1 else 0) ||| marks] ++ leBytes 2 16 seq ++ [source, kindByte] ++ leBytes 2 16 tag ++ leBytes 8 64 time
              ++ rest
      (∀ opcode status taken, reads (.adminDone opcode status taken none) 1 0 opcode
          ([status.code, BitVec.ofNat 8 taken] ++ zeros 14))
      ∧ (∀ opcode status taken f, reads (.adminDone opcode status taken (some (.fire f))) 1 2 opcode
          ([status.code, BitVec.ofNat 8 taken, f.cause.code, f.moved] ++ zeros 4 ++ leBytes 8 64 f.time))
      ∧ (∀ opcode status taken st n, reads (.adminDone opcode status taken (some (.deleted st n))) 1 2 opcode
          ([status.code, BitVec.ofNat 8 taken, st.code, 0] ++ leBytes 2 16 n.stepDone ++ leBytes 2 16 n.capture
            ++ leBytes 2 16 n.trackEvent ++ leBytes 2 16 n.other ++ zeros 4))
      ∧ (∀ outcome due pos number retire unreported, reads (.stepDone outcome due pos number retire unreported) 2 0 outcome.code
          (leBytes 8 64 due ++ n16 pos ++ leBytes 2 16 number ++ n16 retire ++ [unreported, 0]))
      ∧ (∀ missed level levels delay period width, reads (.capture missed level levels delay period width) 3
          ((if period.isSome then 2 else 0) ||| (if width.isSome then 4 else 0) ||| (if level = .high then 8 else 0)) missed
          (leBytes 6 48 levels ++ leBytes 2 16 delay ++ leBytes 4 32 (period.getD 0) ++ leBytes 4 32 (width.getD 0)))
      ∧ (∀ event pos abandoned retire, reads (.trackEvent event none pos abandoned retire) 4 0 event.code
          ([0, 0] ++ n16 pos ++ n16 abandoned ++ n16 retire ++ zeros 8))
      ∧ (∀ event cause pos abandoned retire, reads (.trackEvent event (some cause) pos abandoned retire) 4 0 event.code
          ([cause.code, cause.subcode] ++ n16 pos ++ n16 abandoned ++ n16 retire ++ zeros 8))
      ∧ (∀ cause moved edge, reads (.trip cause moved edge) 5 (if edge.isSome then 2 else 0) cause.code
          ([moved] ++ zeros 7 ++ leBytes 8 64 (edge.getD 0)))
      ∧ (∀ index, reads (.postRefused index) 6 0 1 (leBytes 2 16 index ++ zeros 14))
      ∧ (∀ index, reads (.releaseRefused index) 6 0 2 (leBytes 2 16 index ++ zeros 14))
      ∧ (∀ slot number, reads (.rqFailed slot number) 6 0 3 (n16 slot ++ leBytes 2 16 number ++ zeros 12))
      ∧ ∀ n, reads (.overflow n) 7 0 0
          (leBytes 2 16 n.stepDone ++ leBytes 2 16 n.capture ++ leBytes 2 16 n.trackEvent ++ leBytes 2 16 n.other ++ zeros 8))
    ∧ identityRecord = [0x5A, 0x00, 0x08, 0x48, 1, 48, 8, 16, 8, 8, 2, 8, 1, 0, 0, 0, 4, 0, 0, 0x10, 16, 0, 0, 0x10, 4, 0, 0, 1,
        32, 32, 64, 0, 10, 0, 0, 0] ++ List.replicate 12 0
    ∧ (∀ s : State, (snapshotRecord s).length = 392 ∧ (snapshotRecord s).take 8 = leBytes 8 64 s.time
        ∧ ∀ l : LineId, ((snapshotRecord s).drop (8 + 8 * l.val)).take 8 = snapshotEntry (s.line l))
    ∧ (∀ c : Line, snapshotEntry c =
        [c.mode.code, (match c.owner with | none => 0 | some o => BitVec.ofNat 8 (128 + 16 * o.track.val + o.lane.val)), c.drive.code,
         c.safeMode.code,
         (if c.staticLevel = .high then 1 else 0) + (if c.raw = .high then 2 else 0) + (if c.accepted = .high then 4 else 0)
           + (if c.pendingStart.isSome then 8 else 0),
         c.missed] ++ leBytes 2 16 c.glitch)
    ∧ (∀ c : Track,
        let n16 := fun n : Nat => leBytes 2 16 (BitVec.ofNat 16 n)
        let in16 := fun (x : Option (BitVec 16)) => leBytes 2 16 (x.getD 0)
        let in64 := fun (x : Option Time) => leBytes 8 64 (x.getD 0)
        let begun := c.current.bind (·.waitStart)
        (trackStatusRecord c).length = 80 ∧ trackStatusRecord c =
          [c.state.code, if c.state = .paused then (c.pausedFrom.map (·.code)).getD 0 else 0,
           if c.state = .safe then (c.safeCause.map (·.code)).getD 0 else 0,
           if c.state = .safe then (c.safeCause.map (·.subcode)).getD 0 else 0,
           if c.state = .safe then (c.safeFrom.map (·.code)).getD 0 else 0,
           BitVec.ofNat 8 c.lanes.length, BitVec.ofNat 8 c.rq.val,
           (if c.current.isSome then 1 else 0) + (if begun.isSome then 2 else 0) + (if c.startTime.isSome then 4 else 0)
             + (if c.loop.isSome then 8 else 0) + (if c.stopReq.isSome then 16 else 0)]
          ++ n16 c.post ++ n16 c.fetch ++ n16 c.retire
          ++ [c.epoch, BitVec.ofNat 8 c.prefetch.length,
              (match c.read with | none => 0 | some r => if r.stale then 2 else 1),
              (match c.stopReq with | none => 0 | some .hold => 1 | some .park => 2)]
          ++ n16 ((c.current.map (·.pos)).getD 0) ++ n16 ((c.loop.map (·.pos)).getD 0) ++ in16 (c.loop.map (·.remaining))
          ++ in16 (c.loop.map (·.pass)) ++ [c.unreported, 0] ++ leBytes 4 32 c.applied ++ in64 (c.current.bind (·.due))
          ++ in64 begun ++ in64 c.startTime ++ leBytes 8 64 c.refTime ++ leBytes 4 32 c.late ++ leBytes 4 32 c.skipped
          ++ List.replicate 8 0)
    ∧ [TrackState.unbound, .stopped, .armed, .due, .inputWait, .empty, .paused, .safe].map (·.code) = [0, 1, 2, 3, 4, 5, 6, 7]
    ∧ [PausedFrom.due, .inputWait, .empty].map (·.code) = [3, 4, 5]
    ∧ [SafeFrom.notStarted, .started].map (·.code) = [1, 2]
    ∧ [SafeCause.trip 0, .trip 1, .starved, .late, .waitTimeout, .badStep .unknownKind, .hostMemory, .deviceFault].map (·.code)
        = [1, 2, 3, 4, 5, 6, 7, 8]
    ∧ [Subcode.unknownKind, .badDue, .maskRange, .badLine, .badCondition, .loopCount, .nestedLoop, .nextWithoutLoop].map
        (fun sub => (SafeCause.badStep sub).subcode) = [1, 2, 3, 4, 5, 6, 7, 8]
    ∧ [SafeCause.trip 0, .trip 1, .starved, .late, .waitTimeout, .hostMemory, .deviceFault].map (·.subcode) = [0, 0, 0, 0, 0, 0, 0]
    ∧ [Status.ok, .badOpcode, .badTarget, .badParam, .badTime, .state, .busy, .lineBusy, .noQueue, .queueInUse, .tripActive,
        .stepInvalid, .dmaError].map (·.code) = [0, 1, 2, 3, 4, 5, 6, 7, 8, 9, 10, 11, 12]
    ∧ [StepOutcome.applied, .appliedLate, .skipped, .waitMet, .waitTimeout].map (·.code) = [1, 2, 3, 4, 5]
    ∧ [TrackEventKind.started, .ended, .stopped, .resumed, .safe].map (·.code) = [1, 2, 3, 4, 5]
    ∧ [FireCause.edge, .level, .host].map (·.code) = [1, 2, 3] ∧ [RqState.active, .failed].map (·.code) = [1, 2]
    ∧ [LineMode.off, .input, .static, .track, .parked].map (·.code) = [0, 1, 2, 3, 4]
    ∧ [Drive.low, .high, .float].map (·.code) = [0, 1, 2] ∧ [SafeMode.hold, .float, .low, .high].map (·.code) = [0, 1, 2, 3]

/-! ## The fetch unit -/

/-- READ_ISSUE (R19, R13, R20): the lowest-numbered requester that is EMPTY, or DUE with an empty list, is granted before the admin
engine, the admin engine before the others, and those in turn from the track after the last granted one; with no requester nothing
happens. -/
def Obligations.ArbiterGrants : Prop :=
  ∀ s : State,
    let requests := fun k : TrackId => (s.track k).state ≠ .unbound ∧ (s.track k).state ≠ .safe
      ∧ (s.track k).prefetch.length < 8 ∧ (s.track k).fetch ≠ (s.track k).post ∧ (s.track k).read = none
    let urgent := fun k : TrackId =>
      requests k ∧ ((s.track k).state = .empty ∨ ((s.track k).state = .due ∧ (s.track k).prefetch = []))
    let waits := s.admin.engine = .idleWait ∧ s.port.dev = .ready ∧ s.port.run = true ∧ s.admin.post ≠ s.admin.taken
    (∀ k, urgent k → (∀ j, j < k → ¬urgent j) → grant s = some (.track k))
    ∧ ((∀ k, ¬urgent k) → waits → grant s = some .admin)
    ∧ ((∀ k, ¬urgent k) → ¬waits → ∀ i : TrackId, requests (s.lastGranted + 1 + i) →
        (∀ j, j < i → ¬requests (s.lastGranted + 1 + j)) → grant s = some (.track (s.lastGranted + 1 + i)))
    ∧ ((∀ k, ¬requests k) → ¬waits → grant s = none)

/-- READ_ISSUE of a granted track (R13, R20): the read starts at the fetch index and covers the smallest of the free slots, the
positions to the ring end and the posted positions not yet read; the fetch index does not move.
READ_ISSUE of the granted admin engine (R168): FETCHING the 64 bytes at the taken index, the last granted track unchanged (R20).
READ_ISSUE with nothing granted changes nothing: READ_ISSUE is the host port being ready (R19), and that it then does nothing is the
model's choice (log entry 16).
The 64-bit sum of an address wraps by the model's choice (log entry 29). -/
def Obligations.ReadIssued : Prop :=
  (∀ (k : TrackId) (s : State), s.port.dev ≠ .resetting → grant s = some (.track k) →
      let c := s.track k
      let n := min (min (8 - c.prefetch.length) (c.sqSize - c.fetch)) (ringDist c.sqSize c.post c.fetch)
      ∃ t, Completes .readIssue s t
        ∧ t = { s with tracks := t.tracks, lastGranted := k, link := { s.link with
            reads := s.link.reads ++ [{ who := .track k, issued := s.time }]
            out := s.link.out ++ [.read (c.sqBase + 32 * BitVec.ofNat 64 c.fetch) (32 * n)] } }
        ∧ t.track k = { c with read := some { start := c.fetch, count := n, stale := false } }
        ∧ ∀ j, j ≠ k → t.track j = s.track j)
    ∧ ∀ s : State, s.port.dev ≠ .resetting →
      (grant s = some .admin → Completes .readIssue s
        { s with
          admin := { s.admin with engine := .fetching s.admin.taken }
          link := { s.link with
            reads := s.link.reads ++ [{ who := .admin, issued := s.time }]
            out := s.link.out ++ [.read (s.admin.base + 64 * BitVec.ofNat 64 s.admin.taken) 64] } })
      ∧ (grant s = none → Completes .readIssue s s)

/-- STEP_READ_COMPLETION with the stale mark clear, on a track that is not EMPTY (R14): the records join the tail of the list with their
positions, the fetch index advances by their number modulo size and the read-in-flight record is cleared; nothing else changes.
STEP_READ_COMPLETION and STEP_READ_ERROR with the stale mark set (R15): the data are discarded, and only the read-in-flight record
is cleared. -/
def Obligations.StepReadJoinsList : Prop :=
  (∀ (k : TrackId) (data : Vector StepRecord 8) (r : ReadInFlight) (s : State), s.port.dev ≠ .resetting →
      (s.readOf (.track k)).isSome → (s.track k).read = some r → r.stale = false → (s.track k).state ≠ .empty → r.count ≤ 8 →
      let c := s.track k
      ∃ t, Completes (.stepReadCompletion k data) s t
        ∧ t = { s with tracks := t.tracks, link := { s.link with reads := t.link.reads } }
        ∧ t.link.reads = s.link.reads.eraseP (fun x => x.who == .track k)
        ∧ (∀ j, j ≠ k → t.track j = s.track j)
        ∧ t.track k = { c with prefetch := (t.track k).prefetch, fetch := (c.fetch + r.count) % c.sqSize, read := none }
        ∧ (t.track k).prefetch.length = c.prefetch.length + r.count
        ∧ (∀ i, i < c.prefetch.length → (t.track k).prefetch[i]? = c.prefetch[i]?)
        ∧ ∀ i : Fin 8, i.val < r.count →
            (t.track k).prefetch[c.prefetch.length + i.val]? = some { record := data[i], pos := r.start + i.val })
    ∧ ∀ (c : Instr) (k : TrackId) (r : ReadInFlight) (s : State),
      ((∃ data, c = .stepReadCompletion k data) ∨ c = .stepReadError k) → s.port.dev ≠ .resetting →
      (s.readOf (.track k)).isSome → (s.track k).read = some r → r.stale = true →
        Completes c s ((s.dropRead (.track k)).setTrack k { s.track k with read := none })

/-- STEP_READ_COMPLETION of an EMPTY track (R49, R28, R31, R33): the records join, the hold timer becomes idle and the track takes its
next record in the same event: a timed head that passes its check becomes current with its due time, ABS as given, REL from the
reference time modulo 2^64, NOW the moment, and is judged. An early one leaves the track DUE for that time; what a judgment does
with one on time or late is in JudgmentAndLoops, and what a failed check does in RecordChecks. -/
def Obligations.EmptyTrackTakesHead : Prop :=
  ∀ (k : TrackId) (data : Vector StepRecord 8) (r : ReadInFlight) (s : State), s.port.dev ≠ .resetting →
    (s.readOf (.track k)).isSome → (s.track k).read = some r → r.stale = false → (s.track k).state = .empty →
    (s.track k).prefetch = [] → r.count ≤ 8 →
    let c := s.track k
    let row := Instr.stepReadCompletion k data
    ∃ s1, Completes row s (takeNext k s1)
      ∧ s1 = { s with tracks := s1.tracks, link := { s.link with reads := s1.link.reads } }
      ∧ s1.link.reads = s.link.reads.eraseP (fun x => x.who == .track k) ∧ (∀ j, j ≠ k → s1.track j = s.track j)
      ∧ s1.track k = { c with
          prefetch := (s1.track k).prefetch, fetch := (c.fetch + r.count) % c.sqSize, read := none
          dueTimer := none, timeoutTimer := none, holdTimer := none }
      ∧ (s1.track k).prefetch.length = r.count
      ∧ (∀ i : Fin 8, i.val < r.count → (s1.track k).prefetch[i.val]? = some { record := data[i], pos := r.start + i.val })
      ∧ (1 ≤ r.count → Timed data[0] → checkRecord c.lanes.length c.loop.isSome data[0] = none →
          ∀ d, (recDueMode data[0] = some .abs ∧ d = recDue data[0]) ∨ (recDueMode data[0] = some .rel ∧ d = c.refTime + recDue data[0])
              ∨ (recDueMode data[0] = some .now ∧ d = s.time) →
          let step : CurrentStep := { record := data[0], pos := r.start, due := some d, waitStart := none
                                      pass := match c.loop with | some l => l.pass | none => 0 }
          let s2 := s1.setTrack k { s1.track k with prefetch := (s1.track k).prefetch.tail, current := some step }
          Completes row s (carryOn k (judge k step s2))
          ∧ (s.time < d → Completes row s (s2.setTrack k { s2.track k with state := .due, dueTimer := some d })))

/-- STEP_READ_ERROR with the stale mark clear (R16): the read-in-flight record is cleared, none of its records joins the list and the
fetch index stays; a track in SAFE keeps its cause, and any other bound track enters SAFE with cause HOST-MEMORY.
READ_TIMEOUT (R17): a read that has been in flight for 1 000 000 ticks completes with error, as its error row does; before that
moment, and with no read in flight, there is no such completion (log entry 3). -/
def Obligations.ReadErrorsAndTimeouts : Prop :=
  (∀ (k : TrackId) (r : ReadInFlight) (s : State), s.port.dev ≠ .resetting → (s.readOf (.track k)).isSome →
      (s.track k).read = some r → r.stale = false →
      let s1 := (s.dropRead (.track k)).setTrack k { s.track k with read := none }
      ((s.track k).state = .safe → Completes (.stepReadError k) s s1)
      ∧ ((s.track k).state = .stopped ∨ (s.track k).state = .armed →
          Completes (.stepReadError k) s (enterSafe k .hostMemory .notStarted s1))
      ∧ ((s.track k).state = .due ∨ (s.track k).state = .inputWait ∨ (s.track k).state = .empty ∨ (s.track k).state = .paused →
          Completes (.stepReadError k) s (enterSafe k .hostMemory .started s1)))
    ∧ ∀ (who : Requester) (s : State),
      (∀ r, s.readOf who = some r → r.issued + 1000000 ≤ s.time →
        ∃ t, Completes (.readTimeout who) s t
          ∧ Completes (match who with | .track k => .stepReadError k | .admin => .adminReadError) s t)
      ∧ (∀ r, s.readOf who = some r → s.time < r.issued + 1000000 → Completes (.readTimeout who) s s)
      ∧ (s.readOf who = none → Completes (.readTimeout who) s s)

/-- RETIRE_WORD_WRITE_DONE and RETIRE_WORD_WRITE_ERROR of the present binding (R24): the mark is cleared; without error a retire index
that has moved on is written at once, as four little-endian bytes; with error the track enters SAFE with cause HOST-MEMORY where its
state allows it, and no follow-up write is issued.
A retire-word write of an earlier binding (R25): its completion, with or without error, has no other effect on the track than that a
new binding with a retire word then writes its present retire index at once. -/
def Obligations.RetireWordCompletes : Prop :=
  (∀ (k : TrackId) (w : RetireWrite) (s : State), s.port.dev ≠ .resetting →
      (s.writeOf (WritePurpose.isRetireWordOf k)).isSome → (s.track k).retireWrite = some w → w.earlier = false →
      let c := s.track k
      let s1 := (s.dropWrite (WritePurpose.isRetireWordOf k)).setTrack k { c with retireWrite := none }
      (c.retire = w.value → Completes (.retireWordWriteDone k) s s1)
      ∧ (c.retire ≠ w.value → ∃ t, Completes (.retireWordWriteDone k) s t
          ∧ t.track k = { c with retireWrite := some { value := c.retire, earlier := false } }
          ∧ (∀ j, j ≠ k → t.track j = s.track j)
          ∧ t.link.writes = s1.link.writes ++ [{ addr := c.retireAddr, data := leBytes 4 32 (BitVec.ofNat 32 c.retire),
                                                 purpose := .retireWord k }]
          ∧ t = { s with tracks := t.tracks, link := { s.link with writes := t.link.writes, out := t.link.out } })
      ∧ (c.state = .safe ∨ c.state = .unbound → Completes (.retireWordWriteError k) s s1)
      ∧ (c.state = .stopped ∨ c.state = .armed → Completes (.retireWordWriteError k) s (enterSafe k .hostMemory .notStarted s1))
      ∧ (c.state = .due ∨ c.state = .inputWait ∨ c.state = .empty ∨ c.state = .paused →
          Completes (.retireWordWriteError k) s (enterSafe k .hostMemory .started s1)))
    ∧ ∀ (c : Instr) (k : TrackId) (w : RetireWrite) (s : State), c = .retireWordWriteDone k ∨ c = .retireWordWriteError k →
      s.port.dev ≠ .resetting → (s.writeOf (WritePurpose.isRetireWordOf k)).isSome → (s.track k).retireWrite = some w →
      w.earlier = true →
      let b := s.track k
      let s1 := s.dropWrite (WritePurpose.isRetireWordOf k)
      (b.state = .unbound ∨ b.retireAddr = 0 → Completes c s (s1.setTrack k { b with retireWrite := none }))
      ∧ (b.state ≠ .unbound → b.retireAddr ≠ 0 → ∃ t, Completes c s t
          ∧ t.track k = { b with retireWrite := some { value := b.retire, earlier := false } }
          ∧ (∀ j, j ≠ k → t.track j = s.track j)
          ∧ t.link.writes = s1.link.writes ++ [{ addr := b.retireAddr, data := leBytes 4 32 (BitVec.ofNat 32 b.retire),
                                                 purpose := .retireWord k }]
          ∧ t = { s with tracks := t.tracks, link := { s.link with writes := t.link.writes, out := t.link.out } })

/-! ## The admin engine -/

/-- The bytes of an admin command and the command agree (R191, R194): the record that spells a command reads as that command with its
id. An opcode that names a command is never an unknown one. -/
def Obligations.DecodeOfEncodedCommand : Prop :=
  ∀ (id : BitVec 16) (c : Command), (∀ opcode, c = .unknown opcode → opcodeNamed opcode = false) →
    decodeCommand (encodeCommand id c) = (id, c)

/-- The row of a command whose read is in flight (R168, R170, R171): the engine takes the command, its effect is made on the state
without the read, and its answer, its buffer write or its wait follows from the reply.
ADMIN_READ_COMPLETION of the record that spells a command is the row of that command (R168, R194; log entry 6): both answer the same
next state.
UNKNOWN_OPCODE, and ADMIN_READ_COMPLETION of a record whose opcode names no command (R170): BAD-OPCODE, with the opcode as read in
the answer and no effect on any block.
The row of a command, and ADMIN_READ_ERROR, when the engine has dropped the command it was fetching (R175): the completion leaves
the link and has no effect on any block. With no read in flight there is no completion and nothing changes (log entry 3). -/
def Obligations.RecordIsItsRow : Prop :=
  (∀ (id : BitVec 16) (c : Command) (pos : Nat) (s : State), s.takes pos →
      (∀ opcode, c = .unknown opcode → opcodeNamed opcode = false) →
      let h := s.inHand pos id c
      (∀ status result s2, commandEffect id c s.taken = (.answer status result, s2) →
        Completes (Instr.ofCommand id c) s (handAdminDone h status result s2))
      ∧ (∀ addr data s2, commandEffect id c s.taken = (.write addr data, s2) → Completes (Instr.ofCommand id c) s
          ((s2.issueWrite { addr := addr, data := data, purpose := .buffer }).setEngine (.writing h)))
      ∧ ∀ q result s2, commandEffect id c s.taken = (.drain q result, s2) →
          Completes (Instr.ofCommand id c) s (s2.setEngine (.executing h q result)))
    ∧ (∀ (id : BitVec 16) (c : Command) (s : State), (∀ opcode, c = .unknown opcode → opcodeNamed opcode = false) →
      ∃ t, Completes (.adminReadCompletion (encodeCommand id c)) s t ∧ Completes (Instr.ofCommand id c) s t)
    ∧ (∀ (id : BitVec 16) (opcode : Byte) (pos : Nat) (s : State), s.takes pos → opcode = 0 ∨ 0x11 < opcode.toNat →
      Completes (.unknownOpcode id opcode) s (handAdminDone (s.inHand pos id (.unknown opcode)) .badOpcode none s.taken)
      ∧ ∀ record : CommandRecord, record[0] = opcode → le16 record[2] record[3] = id →
          Completes (.adminReadCompletion record) s (handAdminDone (s.inHand pos id (.unknown opcode)) .badOpcode none s.taken))
    ∧ ∀ (id : BitVec 16) (c : Command) (s : State), (∀ opcode, c = .unknown opcode → opcodeNamed opcode = false) →
      ((s.readOf .admin).isSome → s.admin.engine = .idleWait → s.port.dev ≠ .resetting →
        Completes (Instr.ofCommand id c) s s.taken ∧ Completes .adminReadError s s.taken)
      ∧ (s.readOf .admin = none → Completes (Instr.ofCommand id c) s s ∧ Completes .adminReadError s s)

/-- R170, R176: a command answered at its taking with any status but OK carries no result and has changed no state of any block. A
DMA-ERROR is never answered at the taking, but when a buffer write completes (R172), and the effects of its command stand. -/
def Obligations.RefusedCommandChangesNothing : Prop :=
  ∀ (id : BitVec 16) (c : Command) (status : Status) (result : Option AdminResult) (s s' : State),
    commandEffect id c s = (.answer status result, s') → status ≠ .ok → s' = s ∧ result = none ∧ status ≠ .dmaError

/-- The answer of a command (R137, R152, R171, R173): with a free slot of RQ0 the ADMIN-DONE is posted, carrying the AQ position, the
command id, the taking time, opcode, status, the taken index that follows, and the result; the taken index advances, the engine
returns to IDLE-WAIT and a withdrawn run request makes the device HALTED (R184). With no free slot it waits and the engine is in
WAIT-SLOT (R140). In FAULTED it is dropped.
The 64-bit sum of an address wraps by the model's choice (log entry 29). -/
def Obligations.AdminDoneHanded : Prop :=
  ∀ (h : InHand) (status : Status) (result : Option AdminResult) (s : State),
    let after := (h.pos + 1) % s.admin.size
    let r : Report := { source := BitVec.ofNat 8 h.pos, tag := h.id, time := h.taking,
                        body := .adminDone h.command.opcode status after result }
    (s.port.dev ≠ .faulted → 1 ≤ freeSlots (s.rq 0) → ∃ t, handAdminDone h status result s = t
        ∧ t.admin = { s.admin with taken := after, engine := .idleWait }
        ∧ t.port = { s.port with dev := if s.port.dev = .ready ∧ s.port.run = false then .halted else s.port.dev }
        ∧ t.link.writes = s.link.writes ++ [{
            addr := (s.rq 0).base + 32 * BitVec.ofNat 64 (s.rq 0).write
            data := encodeEntry (s.rq 0).pass (s.rq 0).seq r
            purpose := .entry 0 (s.rq 0).write (s.rq 0).seq }]
        ∧ (t.rq 0).write = ((s.rq 0).write + 1) % (s.rq 0).size ∧ (t.rq 0).seq = (s.rq 0).seq + 1
        ∧ (∀ q, q ≠ 0 → t.rq q = s.rq q)
        ∧ t = { s with admin := t.admin, port := t.port, rqs := t.rqs,
                       link := { s.link with writes := t.link.writes, out := t.link.out } })
    ∧ (s.port.dev ≠ .faulted → freeSlots (s.rq 0) = 0 →
        handAdminDone h status result s = { s with waiting := some r, admin := { s.admin with engine := .waitSlot h } })
    ∧ (s.port.dev = .faulted → handAdminDone h status result s = s)

/-- ADMIN_READ_ERROR while FETCHING in READY (R169, R187, R175, R163, R132): the device is FAULTED with cause AQ-FETCH, the engine is in
IDLE-WAIT with the taken index where it was, no ADMIN-DONE waits, every bound track is SAFE with the cause it had or DEVICE-FAULT
and its lanes at their safe-mode results, every delay timer is idle, no entry is posted, and the fatal message goes out on RQ0's
vector. The last clause is for an unmasked vector with messages allowed.
ENTRY_WRITE_ERROR of RQ0 in READY or HALTED (R148, R187): the device is FAULTED with cause RQ0-WRITE and RQ0 stays ACTIVE; a second
error completion in FAULTED changes only the writes in flight. The statement is for queues that are not closing. -/
def Obligations.FatalErrorsFault : Prop :=
  (∀ (pos : Nat) (s : State), s.takes pos →
      ∃ t, Completes .adminReadError s t
        ∧ t.port = { s.port with dev := .faulted, faultCause := .aqFetch }
        ∧ t.admin = { s.admin with engine := .idleWait } ∧ t.waiting = none
        ∧ t.link.reads = s.link.reads.eraseP (fun r => r.who == .admin) ∧ t.link.writes = s.link.writes
        ∧ (∀ k, ((s.track k).state = .unbound ∨ (s.track k).state = .safe) → t.track k = s.track k)
        ∧ (∀ k, (s.track k).state ≠ .unbound → (s.track k).state ≠ .safe → t.track k = { s.track k with
            state := .safe, safeCause := some .deviceFault
            safeFrom := some (if (s.track k).state = .stopped ∨ (s.track k).state = .armed then .notStarted else .started)
            stopReq := none, startTime := none, dueTimer := none, timeoutTimer := none, holdTimer := none })
        ∧ (∀ l, t.line l = match (s.line l).owner with
            | none => s.line l
            | some o => if (s.track o.track).state = .unbound ∨ (s.track o.track).state = .safe then s.line l
                else { s.line l with drive := safeResult (s.line l).safeMode (s.line l).drive })
        ∧ (∀ q, t.rq q = { s.rq q with irq := { (s.rq q).irq with timer := none } })
        ∧ t.trips = s.trips ∧ t.time = s.time
        ∧ (s.link.msiAllowed = true → s.link.masked[(s.rq 0).irq.vector] = false →
            t.link.out = s.link.out ++ [.message (s.rq 0).irq.vector]))
    ∧ ∀ s : State, (s.writeOf (WritePurpose.isEntryOf 0)).isSome → (s.rq 0).closing = false →
      (s.live → ∃ t, Completes (.entryWriteError 0) s t
        ∧ t.port = { s.port with dev := .faulted, faultCause := .rq0Write }
        ∧ t.rq 0 = { s.rq 0 with inFlight := (s.rq 0).inFlight - 1, irq := { (s.rq 0).irq with timer := none } }
        ∧ t.admin = { s.admin with engine := .idleWait } ∧ t.waiting = none
        ∧ ∀ k, (s.track k).state ≠ .unbound → (t.track k).state = .safe)
      ∧ (s.port.dev = .faulted → Completes (.entryWriteError 0) s
          ((s.dropWrite (WritePurpose.isEntryOf 0)).setRq 0 { s.rq 0 with inFlight := (s.rq 0).inFlight - 1 }))

/-- IDENTIFY, SNAPSHOT and TRACK_STATUS with an aligned buffer (R172, R177, R92, R79): one write of the whole record, fixed at the
taking, is issued and the engine enters WRITING; SNAPSHOT's clear-glitch sets every glitch count to 0 after the copy; nothing else
changes. A misaligned buffer is refused with BAD-PARAM, after TRACK_STATUS's BAD-TARGET for a track number of 8 or more (R79).
BUFFER_WRITE_COMPLETION while WRITING (R172): the command is answered OK, or DMA-ERROR after an error, in the completion event;
after an entry into FAULTED the completion has no effect on the engine (R175). -/
def Obligations.BufferCommands : Prop :=
  (∀ (id : BitVec 16) (buffer : Addr) (pos : Nat) (s : State), s.takes pos → 8 ∣ buffer.toNat →
      let writes := fun (c : Command) (data : List Byte) (t : State) =>
        t.admin = { s.admin with engine := .writing (s.inHand pos id c) }
          ∧ t.link.writes = s.link.writes ++ [{ addr := buffer, data := data, purpose := .buffer }]
          ∧ t.link.out = s.link.out ++ [.write buffer data]
          ∧ t = { s with admin := t.admin, lines := t.lines,
                         link := { s.taken.link with writes := t.link.writes, out := t.link.out } }
      (∃ t, Completes (.identify id buffer) s t ∧ writes (.identify buffer) identityRecord t ∧ t.lines = s.lines)
      ∧ (∀ clear, ∃ t, Completes (.snapshot id buffer clear) s t ∧ writes (.snapshot buffer clear) (snapshotRecord s) t
          ∧ ∀ l, t.line l = if clear then { s.line l with glitch := 0 } else s.line l)
      ∧ ∀ (track : Byte) (k : TrackId), track.toNat = k.val →
          ∃ t, Completes (.trackStatus id track buffer) s t
            ∧ writes (.trackStatus track buffer) (trackStatusRecord (s.track k)) t ∧ t.lines = s.lines)
    ∧ (∀ (id : BitVec 16) (buffer : Addr) (pos : Nat) (s : State), s.takes pos →
      (¬8 ∣ buffer.toNat →
        Completes (.identify id buffer) s (handAdminDone (s.inHand pos id (.identify buffer)) .badParam none s.taken)
        ∧ (∀ clear, Completes (.snapshot id buffer clear) s
            (handAdminDone (s.inHand pos id (.snapshot buffer clear)) .badParam none s.taken))
        ∧ ∀ track : Byte, track.toNat < 8 → Completes (.trackStatus id track buffer) s
            (handAdminDone (s.inHand pos id (.trackStatus track buffer)) .badParam none s.taken))
      ∧ ∀ track : Byte, 8 ≤ track.toNat → Completes (.trackStatus id track buffer) s
          (handAdminDone (s.inHand pos id (.trackStatus track buffer)) .badTarget none s.taken))
    ∧ ∀ (error : Bool) (h : InHand) (s : State), (s.writeOf WritePurpose.isBuffer).isSome → s.port.dev ≠ .resetting →
      (s.admin.engine = .writing h → Completes (.bufferWriteCompletion error) s
        (handAdminDone h (if error then .dmaError else .ok) none (s.dropWrite WritePurpose.isBuffer)))
      ∧ (s.admin.engine = .idleWait → Completes (.bufferWriteCompletion error) s (s.dropWrite WritePurpose.isBuffer))

/-! ## Lines -/

/-- SET_LINE accepted (R87, R88, R89): the settings are stored in every mode, the resulting mode gives drive and static level, a line
that leaves OFF starts its conditioner from the pin, one that enters OFF or changes its window drops a pending change without a
glitch, a window greater than 0 restarts a change still pending, and a change of capture mode or interval enable makes the edge
times absent. The immediate acceptance of R89 step 3, for window 0 with the raw level off the accepted one, is the second part.
R89 step 3: a window of 0 given to a running conditioner whose raw level differs from the accepted level is an acceptance at the
taking, handed out under the new settings (log entry 11); here for a line no consumer of which has anything to do.
The model's reading (log entry 26, DEDUCED): a line that leaves OFF has no edge times, as R89 step 1 and R114's table say. -/
def Obligations.SetLineResult : Prop :=
  (∀ (id : BitVec 16) (p : SetLineParams) (l : LineId) (m : LineMode) (safe : SafeMode) (capture : CaptureMode) (rq : QueueId)
      (level : Level) (pos : Nat) (s : State), s.takes pos →
      p.line.toNat = l.val → safeMode? p.safeMode = some safe → captureMode? p.captureMode = some capture →
      p.captureRq.toNat = rq.val →
      ((p.mode = 0 ∧ m = (s.line l).mode) ∨ ((s.line l).mode ≠ .track ∧
        ((p.mode = 1 ∧ m = .off) ∨ (p.mode = 2 ∧ m = .input) ∨ (p.mode = 3 ∧ m = .static)))) →
      (m = .static → level? p.staticLevel = some level) → (m ≠ .static → level = (s.line l).staticLevel) →
      (capture = .none ∨ (s.rq rq).state = .active) →
      let c := s.line l
      let starts := c.mode = .off ∧ m ≠ .off
      let drops := (c.mode ≠ .off ∧ m = .off) ∨ (m ≠ .off ∧ c.window ≠ p.window)
      let restarts := ¬starts ∧ m ≠ .off ∧ c.window ≠ p.window ∧ c.raw ≠ c.accepted
      let forgets := starts ∨ c.captureMode ≠ capture ∨ c.interval ≠ p.interval
      (restarts → p.window ≠ 0) →
      ∃ s2, Completes (.setLine id p) s (handAdminDone (s.inHand pos id (.setLine p)) .ok none s2)
        ∧ s2 = { s.taken with lines := s2.lines } ∧ (∀ l', l' ≠ l → s2.line l' = s.line l')
        ∧ s2.line l = { c with
            mode := m
            drive := (match m with | .off => .float | .input => .float | .static => driveOf level | .track => c.drive | .parked => c.drive)
            staticLevel := level, safeMode := safe, window := p.window, captureMode := capture, captureRq := rq, interval := p.interval
            raw := if starts then s.pin l else c.raw
            accepted := if starts then s.pin l else c.accepted
            pendingStart := if restarts then some s.time else if starts ∨ drops then none else c.pendingStart
            windowTimer := if restarts then some (s.time + ticksOf p.window) else if starts ∨ drops then none else c.windowTimer
            lastRise := if forgets then none else c.lastRise
            lastFall := if forgets then none else c.lastFall })
    ∧ ∀ (id : BitVec 16) (p : SetLineParams) (l : LineId) (safe : SafeMode) (rq : QueueId) (pos : Nat) (s : State), s.takes pos →
      p.line.toNat = l.val → safeMode? p.safeMode = some safe → p.captureMode = 0 → p.captureRq.toNat = rq.val → p.mode = 0 →
      (s.line l).mode ≠ .off → (s.line l).mode ≠ .static → p.window = 0 → (s.line l).window ≠ 0 →
      (s.line l).raw ≠ (s.line l).accepted →
      (∀ u, (s.trip u).state = .armed → (s.trip u).source ≠ l) → (∀ k, (s.track k).state ≠ .inputWait) →
      ∃ s2, Completes (.setLine id p) s (handAdminDone (s.inHand pos id (.setLine p)) .ok none s2)
        ∧ s2 = { s.taken with lines := s2.lines } ∧ (∀ l', l' ≠ l → s2.line l' = s.line l')
        ∧ s2.line l = { s.line l with
            drive := if (s.line l).mode = .input then .float else (s.line l).drive
            safeMode := safe, window := 0, captureMode := .none, captureRq := rq, interval := p.interval
            accepted := (s.line l).raw, pendingStart := none, windowTimer := none
            lastRise := if (s.line l).captureMode ≠ .none ∨ (s.line l).interval ≠ p.interval then none else (s.line l).lastRise
            lastFall := if (s.line l).captureMode ≠ .none ∨ (s.line l).interval ≠ p.interval then none else (s.line l).lastFall }

/-- The checks of SET_LINE in their order (R87).
The checks of BIND_TRACK in their order (R60). -/
def Obligations.SetLineAndBindChecks : Prop :=
  (∀ (id : BitVec 16) (p : SetLineParams) (s : State),
      let status := (commandEffect id (.setLine p) s).1
      let unknown := fun l : LineId => 3 < p.mode.toNat ∨ 3 < p.safeMode.toNat ∨ 3 < p.captureMode.toNat ∨ 8 ≤ p.captureRq.toNat
        ∨ (1 < p.staticLevel.toNat ∧ (p.mode = 3 ∨ (p.mode = 0 ∧ (s.line l).mode = .static)))
      (48 ≤ p.line.toNat → status = .answer .badTarget none)
      ∧ ∀ l : LineId, p.line.toNat = l.val →
          (unknown l → status = .answer .badParam none)
          ∧ (¬unknown l → (s.line l).mode = .track → p.mode ≠ 0 → status = .answer .lineBusy none)
          ∧ (¬unknown l → ((s.line l).mode ≠ .track ∨ p.mode = 0) → ∀ q : QueueId, p.captureRq.toNat = q.val →
              status = if p.captureMode ≠ 0 ∧ (s.rq q).state ≠ .active then .answer .noQueue none else .answer .ok none))
    ∧ ∀ (id : BitVec 16) (p : BindParams) (s : State),
      let status := (commandEffect id (.bindTrack p) s).1
      let listed := p.lanes.toList.take p.laneCount.toNat
      let good := 1 ≤ p.laneCount.toNat ∧ p.laneCount.toNat ≤ 16 ∧ (∀ b ∈ listed, b.toNat < 48) ∧ listed.Nodup
        ∧ PowerBetween 4 4096 p.sqSize.toNat ∧ 32 ∣ p.sqBase.toNat ∧ 4 ∣ p.retireAddr.toNat
        ∧ (p.latePolicy = 1 ∨ p.latePolicy = 2 ∨ p.latePolicy = 3) ∧ p.rq.toNat < 8
      (8 ≤ p.track.toNat → status = .answer .badTarget none)
      ∧ ∀ k : TrackId, p.track.toNat = k.val →
          ((s.track k).state ≠ .unbound → status = .answer .state none)
          ∧ ((s.track k).state = .unbound → ¬good → status = .answer .badParam none)
          ∧ ((s.track k).state = .unbound → good → ∀ q : QueueId, p.rq.toNat = q.val →
              ((s.rq q).state ≠ .active → status = .answer .noQueue none)
              ∧ ((s.rq q).state = .active →
                  ((∃ l : LineId, BitVec.ofNat 8 l.val ∈ listed ∧ (s.line l).mode = .track) → status = .answer .lineBusy none)
                  ∧ ((∀ l : LineId, BitVec.ofNat 8 l.val ∈ listed → (s.line l).mode ≠ .track) → status = .answer .ok none)))

/-- SET_STATIC, the whole of R91: refused with STATE, and no line changed, if a masked line is not STATIC; otherwise every masked line
takes its level bit as static level and drive, in one event, and nothing else of any line changes; level bits outside the mask are
not read, and a mask of 0 changes nothing. No raw level changes, so no raw change is made; the only report is the answer. -/
def Obligations.SetStaticResult : Prop :=
  ∀ (id : BitVec 16) (mask levels : BitVec 48) (pos : Nat) (s : State), s.takes pos →
    let h := s.inHand pos id (.setStatic mask levels)
    ((∃ l : LineId, mask.getLsbD l.val = true ∧ (s.line l).mode ≠ .static) →
      Completes (.setStatic id mask levels) s (handAdminDone h .state none s.taken))
    ∧ ((∀ l : LineId, mask.getLsbD l.val = true → (s.line l).mode = .static) →
      ∃ s2, Completes (.setStatic id mask levels) s (handAdminDone h .ok none s2)
        ∧ s2 = { s.taken with lines := s2.lines }
        ∧ (∀ l : LineId, s2.line l =
            if mask.getLsbD l.val then
              { s.line l with
                staticLevel := if levels.getLsbD l.val then .high else .low
                drive := if levels.getLsbD l.val then .high else .low }
            else s.line l)
        ∧ (mask = 0 → s2 = s.taken)
        ∧ ∀ levels', (∀ l : LineId, mask.getLsbD l.val = true → levels'.getLsbD l.val = levels.getLsbD l.val) →
            (commandEffect id (.setStatic mask levels') s.taken).2 = s2)

/-- RAW_CHANGE that the sampler takes, on a line whose window is 0 (R100): the change is accepted in its event, the accepted level takes
the raw level, the conditioner stays SETTLED, and the acceptance is handed out with edge time and acceptance time the time of the
change: to the capture stage, the ARMED units of the line and the tracks in INPUT-WAIT on it, in some order (R105).
RAW_CHANGE that the sampler takes, on a line with a window (R101): a change on a SETTLED line makes the raw level differ from the
accepted level and starts a pending change with its timer; one on a PENDING line returns it to the accepted level, discards the change
and counts a glitch up to 65535. Nothing else changes: no acceptance, no report.
What each consumer does is in CaptureStage, FireAndClearTrip and WaitsEnd. The free order with the consumers that have nothing to do
left out, and the record of pins and samples, are the model's choices (log entries 4, 8, 12 and 24). -/
def Obligations.RawChangeTaken : Prop :=
  (∀ (l : LineId) (level : Level) (s : State), (s.line l).mode ≠ .off → (s.line l).raw ≠ level → (s.line l).window = 0 →
      (s.line l).pendingStart = none → (s.line l).windowTimer = none → s.sampleTaken l level →
      ∃ t, Completes (.rawChange l level) s t
        ∧ HandedOut l level s.time 0 ((s.sampled l level).setLine l { s.line l with raw := level, accepted := level }) t)
    ∧ (∀ (l : LineId) (level : Level) (s : State), (s.line l).sound → (s.line l).mode ≠ .off → (s.line l).raw ≠ level →
      (s.line l).window ≠ 0 → s.sampleTaken l level →
      let c := s.line l
      ((c.pendingStart = none → level ≠ c.accepted ∧ Completes (.rawChange l level) s
          ((s.sampled l level).setLine l { c with
            raw := level, pendingStart := some s.time, windowTimer := some (s.time + c.window.setWidth 64 * 100) }))
        ∧ (c.pendingStart ≠ none → level = c.accepted ∧ Completes (.rawChange l level) s
          ((s.sampled l level).setLine l { c with
            raw := level, pendingStart := none, windowTimer := none
            glitch := if c.glitch = 65535 then 65535 else c.glitch + 1 }))))
    ∧ ∀ (l : LineId) (level : Level) (edge : Time) (delay : BitVec 16) (s : State),
      consume l level edge delay s .capture = captureAcceptance l level edge delay s
      ∧ (∀ u, consume l level edge delay s (.trip u) = tripAcceptance u l level edge s)
      ∧ ∀ k, consume l level edge delay s (.track k) = waitAcceptance k l level s

/-- WINDOW_EXPIRY of a PENDING line (R102): the accepted level takes the raw level, the pending change is cleared and its timer idle,
and the acceptance is handed out with the pending start as edge time, in some order (R105; log entry 4).
A pin that shows a line in OFF any level, or another line the raw level it has, makes no raw change: only the pin is recorded (R99).
So does a second change of one line at one device time, and the readback of a claim in the claim's own tick; the next tick's sample
takes what the pin then shows (R99). The pins and the sampler are the model's own (log entries 8, 12 and 24). -/
def Obligations.WindowExpiryAndStillSample : Prop :=
  (∀ (l : LineId) (start moment : Time) (s : State), (s.line l).pendingStart = some start →
      (s.line l).windowTimer = some moment → moment ≤ s.time →
      let c := s.line l
      ∃ t, Completes (.windowExpiry l) s t
        ∧ HandedOut l c.raw start c.window
            (s.setLine l { c with accepted := c.raw, pendingStart := none, windowTimer := none }) t)
    ∧ ∀ (l : LineId) (level : Level) (s : State), (s.line l).mode = .off ∨ (s.line l).raw = level ∨ ¬s.sampleTaken l level →
      Completes (.rawChange l level) s { s with pins := s.pins.set l level }

/-- The capture stage (R107, R108, R110, R111): on a matching acceptance a CAPTURE is handed to the line's queue with the missed count
as it stood, period and width measured between edge times before their update; the missed count follows the decision; and the edge
time of the direction is recorded whatever the decision. -/
def Obligations.CaptureStage : Prop :=
  ∀ (l : LineId) (level : Level) (edge : Time) (delay : BitVec 16) (s : State), (s.line l).captureMode ≠ .none →
    let c := s.line l
    let same := (match level with | .high => c.lastRise | .low => c.lastFall)
    let other := (match level with | .high => c.lastFall | .low => c.lastRise)
    let carried := fun e : Time => if (edge - e).toNat ≤ 4294967295 then (edge - e).setWidth 32 else BitVec.allOnes 32
    let matching := c.captureMode = .both ∨ (c.captureMode = .rise ∧ level = .high) ∨ (c.captureMode = .fall ∧ level = .low)
    let r : Report := {
      source := BitVec.ofNat 8 l.val, tag := 0, time := s.time
      body := .capture c.missed level (acceptedSet s) delay (if c.interval then same.map carried else none)
        (if c.interval then other.map carried else none) }
    let c' := fun missed : BitVec 8 => (match level with
      | .high => { c with missed := missed, lastRise := some edge }
      | .low => { c with missed := missed, lastFall := some edge })
    (matching → s.decision c.captureRq = .posted →
      captureAcceptance l level edge delay s = (handReport c.captureRq r s).setLine l (c' 0))
    ∧ (matching → s.decision c.captureRq ≠ .posted →
      captureAcceptance l level edge delay s
        = (handReport c.captureRq r s).setLine l (c' (if c.missed = 255 then 255 else c.missed + 1)))
    ∧ (¬matching → captureAcceptance l level edge delay s = s.setLine l (c' c.missed))

/-! ## Tracks: the commands -/

/-- BIND_TRACK accepted (R60, R61, R62): the context takes the parameters with every index, counter and epoch 0, a read in flight is
stale and a retire-word write in flight is of an earlier binding; every listed line enters TRACK mode with its lane and drives its
pattern bit at once, a line from OFF starting its conditioner, the settings of all kept. That a line bound out of OFF has no edge
times is the model's reading of R89 step 1 and R114's table (log entry 26, DEDUCED).
UNBIND_TRACK accepted, of a STOPPED or SAFE track (R63): UNBOUND with one more epoch and the work dropped, the indices, times,
counters and lanes kept (what R63 does not name is kept by the model's choice, log entry 19); every lane is released to OFF,
floating, without owner, its conditioner stopped and its settings kept. A track number of 8 or more is refused with BAD-TARGET, and a
track in any other state with STATE (R59, R63). -/
def Obligations.BindAndUnbindTrack : Prop :=
  (∀ (id : BitVec 16) (p : BindParams) (k : TrackId) (rq : QueueId) (policy : LatePolicy) (lanes : List LineId) (pos : Nat)
      (s : State), s.takes pos → p.track.toNat = k.val → (s.track k).state = .unbound →
      1 ≤ p.laneCount.toNat → p.laneCount.toNat ≤ 16 →
      lanes.map (·.val) = (p.lanes.toList.take p.laneCount.toNat).map (·.toNat) → lanes.Nodup →
      PowerBetween 4 4096 p.sqSize.toNat → 32 ∣ p.sqBase.toNat → 4 ∣ p.retireAddr.toNat → latePolicy? p.latePolicy = some policy →
      p.rq.toNat = rq.val → (s.rq rq).state = .active → (∀ l ∈ lanes, (s.line l).mode ≠ .track) →
      ∃ s2, Completes (.bindTrack id p) s (handAdminDone (s.inHand pos id (.bindTrack p)) .ok none s2)
        ∧ s2 = { s.taken with tracks := s2.tracks, lines := s2.lines }
        ∧ (∀ j, j ≠ k → s2.track j = s.track j)
        ∧ s2.track k = {
            state := .stopped, pausedFrom := some .due, safeCause := none, safeFrom := (s2.track k).safeFrom, current := none
            refTime := 0, loop := none, stopReq := none, startTime := none, dueTimer := none, timeoutTimer := none
            holdTimer := none, applied := 0, late := 0, skipped := 0, unreported := 0
            sqBase := p.sqBase, sqSize := p.sqSize.toNat, post := 0, fetch := 0, retire := 0, epoch := 0, prefetch := []
            read := (s.track k).read.map fun r => { r with stale := true }
            retireAddr := p.retireAddr
            retireWrite := (s.track k).retireWrite.map fun w => { w with earlier := true }
            lanes := lanes, rq := rq, latePolicy := policy, tolerance := p.tolerance, holdLimit := p.holdLimit }
        ∧ (∀ l, l ∉ lanes → s2.line l = s.line l)
        ∧ ∀ (i : Fin 16) (l : LineId), lanes[i.val]? = some l →
            let c := s.line l
            let off := c.mode = .off
            s2.line l = { c with
              mode := .track, owner := some { track := k, lane := i }
              drive := if p.pattern.getLsbD i.val then .high else .low
              raw := if off then s.pin l else c.raw
              accepted := if off then s.pin l else c.accepted
              pendingStart := if off then none else c.pendingStart
              windowTimer := if off then none else c.windowTimer
              lastRise := if off then none else c.lastRise
              lastFall := if off then none else c.lastFall })
    ∧ (∀ (id : BitVec 16) (track : Byte) (k : TrackId) (pos : Nat) (s : State), s.takes pos → track.toNat = k.val →
      (s.track k).state = .stopped ∨ (s.track k).state = .safe →
      ∃ s2, Completes (.unbindTrack id track) s (handAdminDone (s.inHand pos id (.unbindTrack track)) .ok none s2)
        ∧ s2 = { s.taken with tracks := s2.tracks, lines := s2.lines }
        ∧ (∀ j, j ≠ k → s2.track j = s.track j)
        ∧ s2.track k = { s.track k with
            state := .unbound, epoch := (s.track k).epoch + 1, prefetch := [], current := none, loop := none, stopReq := none
            safeCause := none, dueTimer := none, timeoutTimer := none, holdTimer := none
            read := (s.track k).read.map fun r => { r with stale := true }
            retireWrite := (s.track k).retireWrite.map fun w => { w with earlier := true } }
        ∧ ∀ l, s2.line l =
            if (s.line l).ownedBy k then
              { s.line l with mode := .off, owner := none, drive := .float, pendingStart := none, windowTimer := none }
            else s.line l)
    ∧ ∀ (id : BitVec 16) (track : Byte) (pos : Nat) (s : State), s.takes pos →
      let refused := fun status =>
        Completes (.unbindTrack id track) s (handAdminDone (s.inHand pos id (.unbindTrack track)) status none s.taken)
      (8 ≤ track.toNat → refused .badTarget)
      ∧ ∀ k : TrackId, track.toNat = k.val → (s.track k).state ≠ .stopped → (s.track k).state ≠ .safe → refused .state

/-- START_TRACKS with a later AT time (R64, R65): every track of the mask becomes ARMED with the start time, no other track changes, and
the answer is handed at once.
START_TRACKS of one track with NOW, or AT the taking time (R65, R66): the track starts within the event, as it would from ARMED at
that moment, before the answer is handed. -/
def Obligations.StartTracksResult : Prop :=
  (∀ (id : BitVec 16) (mask : Byte) (start : Time) (pos : Nat) (s : State), s.takes pos → mask ≠ 0 → s.time < start →
      (∀ k : TrackId, mask.getLsbD k.val = true → (s.track k).state = .stopped ∧
        ∀ u, (s.trip u).state = .fired → (s.trip u).mask.getLsbD k.val = false) →
      ∃ s2, Completes (.startTracks id mask 2 start) s (handAdminDone (s.inHand pos id (.startTracks mask 2 start)) .ok none s2)
        ∧ s2 = { s.taken with tracks := s2.tracks }
        ∧ ∀ k : TrackId, s2.track k =
            if mask.getLsbD k.val then { s.track k with state := .armed, startTime := some start, stopReq := none } else s.track k)
    ∧ ∀ (id : BitVec 16) (k : TrackId) (mode : Byte) (start : Time) (pos : Nat) (s : State), s.takes pos →
      mode = 1 ∨ (mode = 2 ∧ start = s.time) → (s.track k).state = .stopped →
      (∀ u, (s.trip u).state = .fired → (s.trip u).mask.getLsbD k.val = false) →
      let mask : Byte := 1 <<< k.val
      let armed := s.taken.setTrack k { s.track k with state := .armed, startTime := some s.time, stopReq := none }
      ∃ s2, Completes (.startTimeReached k) armed s2
        ∧ Completes (.startTracks id mask mode start) s (handAdminDone (s.inHand pos id (.startTracks mask mode start)) .ok none s2)

/-- The checks of START_TRACKS in their order (R64): a refusal applies to the whole command, a start time equal to the taking time
passes, and there is no upper bound. A track that a fire has moved into SAFE at an earlier device time is refused with STATE, as any
track that is not STOPPED.
The model's reading (log entry 27, DEDUCED): R127's sentence on the race of a fire and a START-TRACKS is an exception to R64's order;
where every named track is STOPPED or has just been moved by a fire of the same device time, and some track has, the answer is
TRIP-ACTIVE. -/
def Obligations.StartTracksChecks : Prop :=
  ∀ (id : BitVec 16) (mask mode : Byte) (start : Time) (s : State),
    let out := commandEffect id (.startTracks mask mode start) s
    let bad := mask = 0 ∨ (mode ≠ 1 ∧ mode ≠ 2)
    let notStopped := ∃ k : TrackId, mask.getLsbD k.val = true ∧ (s.track k).state ≠ .stopped
    let held := ∃ (k : TrackId) (u : UnitId),
      mask.getLsbD k.val = true ∧ (s.trip u).state = .fired ∧ (s.trip u).mask.getLsbD k.val = true
    let early := mode = 2 ∧ start < s.time
    let raced := fun k : TrackId => (s.track k).state = .safe ∧ ∃ (u : UnitId) (r : FireRecord),
      (s.trip u).state = .fired ∧ (s.trip u).mask.getLsbD k.val = true
        ∧ (s.trip u).lastFire = some r ∧ r.time = s.time ∧ r.moved.getLsbD k.val = true
    (bad → out = (.answer .badParam none, s))
    ∧ (¬bad → (∃ k : TrackId, mask.getLsbD k.val = true ∧ (s.track k).state ≠ .stopped ∧ ¬raced k)
        → out = (.answer .state none, s))
    ∧ (¬bad → (∀ k : TrackId, mask.getLsbD k.val = true → (s.track k).state = .stopped ∨ raced k)
        → (∃ k : TrackId, mask.getLsbD k.val = true ∧ raced k)
        → out = (.answer .tripActive none, s))
    ∧ (¬bad → ¬notStopped → held → out = (.answer .tripActive none, s))
    ∧ (¬bad → ¬notStopped → ¬held → early → out = (.answer .badTime none, s))
    ∧ (¬bad → ¬notStopped → ¬held → ¬early → out.1 = .answer .ok none
        ∧ (mode = 2 → start = s.time → out.2 = (commandEffect id (.startTracks mask 1 start) s).2))

/-- A stop that takes effect, at once or at a boundary (R55, R69, R70): all records from the retire index are abandoned, the epoch
rises, the lanes hold or take their safe-mode results, the retire word is written when the index moved, and STOPPED is handed with
the first abandoned position, the posted count and the tag the track held there.
STOP_TRACK with NOW, and with BOUNDARY on a STOPPED or ARMED track (R68): the stop takes effect at the taking.
STOP_TRACK with BOUNDARY on a running or PAUSED track (R68, R54): the stop-requested flag is set or replaced and nothing else
changes at the taking.
The refusals of STOP_TRACK in their order (R68). -/
def Obligations.StopTrackResult : Prop :=
  (∀ (k : TrackId) (choice : StopLines) (s : State),
      let c := s.track k
      let writes := c.retire ≠ c.post ∧ c.retireAddr ≠ 0 ∧ c.retireWrite = none
      ∃ s1, stopEffect k choice s = handReport c.rq
          { source := BitVec.ofNat 8 k.val, tag := c.heldTag c.retire, time := s.time
            body := .trackEvent .stopped none c.retire (ringDist c.sqSize c.post c.retire) c.post } s1
        ∧ (∀ j, j ≠ k → s1.track j = s.track j)
        ∧ s1.track k = { c with
            state := .stopped, retire := c.post, fetch := c.post, prefetch := [], current := none, loop := none, stopReq := none
            startTime := none, dueTimer := none, timeoutTimer := none, holdTimer := none, epoch := c.epoch + 1
            read := c.read.map fun r => { r with stale := true }
            retireWrite := if writes then some { value := c.post, earlier := false } else c.retireWrite }
        ∧ (∀ l, s1.line l = if choice = .park ∧ (s.line l).ownedBy k then
            { s.line l with drive := safeResult (s.line l).safeMode (s.line l).drive } else s.line l)
        ∧ s1.link.writes = s.link.writes ++ (if writes then
            [{ addr := c.retireAddr, data := leBytes 4 32 (BitVec.ofNat 32 c.post), purpose := .retireWord k }] else [])
        ∧ s1 = { s with tracks := s1.tracks, lines := s1.lines, link := { s.link with writes := s1.link.writes, out := s1.link.out } })
    ∧ (∀ (id : BitVec 16) (track timing lines : Byte) (k : TrackId) (choice : StopLines) (pos : Nat) (s : State), s.takes pos →
      track.toNat = k.val → (s.track k).state ≠ .unbound → (s.track k).state ≠ .safe → stopLines? lines = some choice →
      let h := s.inHand pos id (.stopTrack track timing lines)
      let resting := (s.track k).state = .stopped ∨ (s.track k).state = .armed
      (timing = 1 ∨ (timing = 2 ∧ resting) →
        Completes (.stopTrack id track timing lines) s (handAdminDone h .ok none (stopEffect k choice s.taken)))
      ∧ (timing = 2 → ¬resting → Completes (.stopTrack id track timing lines) s
          (handAdminDone h .ok none (s.taken.setTrack k { s.track k with stopReq := some choice }))))
    ∧ ∀ (id : BitVec 16) (track timing lines : Byte) (pos : Nat) (s : State), s.takes pos →
      let refused := fun status => Completes (.stopTrack id track timing lines) s
        (handAdminDone (s.inHand pos id (.stopTrack track timing lines)) status none s.taken)
      (8 ≤ track.toNat → refused .badTarget)
      ∧ ∀ k : TrackId, track.toNat = k.val →
          ((s.track k).state = .unbound ∨ (s.track k).state = .safe → refused .state)
          ∧ ((s.track k).state ≠ .unbound → (s.track k).state ≠ .safe →
              timing = 0 ∨ 2 < timing.toNat ∨ lines = 0 ∨ 2 < lines.toNat → refused .badParam)

/-- PAUSE_TRACK (R71, R52): a running track becomes PAUSED with the state it left recorded and its timer idle; all else is kept. In any
other state it is refused with STATE, and a track number of 8 or more with BAD-TARGET. -/
def Obligations.PauseTrackResult : Prop :=
  (∀ (id : BitVec 16) (track : Byte) (k : TrackId) (pos : Nat) (s : State), s.takes pos → track.toNat = k.val →
      let h := s.inHand pos id (.pauseTrack track)
      let paused := fun p : PausedFrom => s.taken.setTrack k { s.track k with
        state := .paused, pausedFrom := some p, dueTimer := none, timeoutTimer := none, holdTimer := none }
      ((s.track k).state = .due → Completes (.pauseTrack id track) s (handAdminDone h .ok none (paused .due)))
      ∧ ((s.track k).state = .inputWait → Completes (.pauseTrack id track) s (handAdminDone h .ok none (paused .inputWait)))
      ∧ ((s.track k).state = .empty → Completes (.pauseTrack id track) s (handAdminDone h .ok none (paused .empty)))
      ∧ ((s.track k).state ≠ .due → (s.track k).state ≠ .inputWait → (s.track k).state ≠ .empty →
          Completes (.pauseTrack id track) s (handAdminDone h .state none s.taken)))
    ∧ ∀ (id : BitVec 16) (track : Byte) (pos : Nat) (s : State), s.takes pos → 8 ≤ track.toNat →
      Completes (.pauseTrack id track) s (handAdminDone (s.inHand pos id (.pauseTrack track)) .badTarget none s.taken)

/-- RESUME_TRACK with FLUSH (R72, R73, R78): accepted from PAUSED and SAFE whatever the cause and the trip units; the records are
abandoned as by a stop, the lanes keep their drive, the safe cause becomes none, and RESUMED names the first abandoned position and
the count. The *time* is not read.
RESUME_TRACK with CONTINUE on a PAUSED track, and on a SAFE track that had started (R74, R75, R78): RESUMED is handed first; a current
step whose effect has not begun gets its due time, REL now + due and NOW now under REBASE, unchanged under KEEP and for ABS, and is
judged again (R76), an early one being DUE again; a WAIT that has begun restarts (R77); with no current step the track takes its
next record. The retire index that RESUMED then carries is the one before any step that the same event goes on to retire: the model's
reading of R78 (log entry 25, DEDUCED). RESUME_TRACK with CONTINUE on a SAFE track that had not started (R75): STOPPED, the safe cause cleared, everything else kept.
The checks of RESUME_TRACK in their order (R72, R170). -/
def Obligations.ResumeTrackResult : Prop :=
  (∀ (id : BitVec 16) (track choice : Byte) (k : TrackId) (pos : Nat) (s : State), s.takes pos → track.toNat = k.val →
      (s.track k).state = .paused ∨ (s.track k).state = .safe →
      let c := s.track k
      let writes := c.retire ≠ c.post ∧ c.retireAddr ≠ 0 ∧ c.retireWrite = none
      ∃ s1, Completes (.resumeTrack id track 2 choice) s (handAdminDone (s.inHand pos id (.resumeTrack track 2 choice)) .ok none
          (handReport c.rq { source := BitVec.ofNat 8 k.val, tag := c.heldTag c.retire, time := s.time,
                             body := .trackEvent .resumed none c.retire (ringDist c.sqSize c.post c.retire) c.post } s1))
        ∧ (∀ j, j ≠ k → s1.track j = s.track j)
        ∧ s1.track k = { c with
            state := .stopped, safeCause := none, retire := c.post, fetch := c.post, prefetch := [], current := none, loop := none
            stopReq := none, startTime := none, dueTimer := none, timeoutTimer := none, holdTimer := none, epoch := c.epoch + 1
            read := c.read.map fun r => { r with stale := true }
            retireWrite := if writes then some { value := c.post, earlier := false } else c.retireWrite }
        ∧ s1.lines = s.lines
        ∧ s1.link.writes = s.link.writes ++ (if writes then
            [{ addr := c.retireAddr, data := leBytes 4 32 (BitVec.ofNat 32 c.post), purpose := .retireWord k }] else []))
    ∧ (∀ (id : BitVec 16) (track choice : Byte) (k : TrackId) (rebase : Bool) (pos : Nat) (s : State), s.takes pos →
      track.toNat = k.val → (choice = 1 ∧ rebase = true) ∨ (choice = 2 ∧ rebase = false) →
      let c := s.track k
      let row := Instr.resumeTrack id track 1 choice
      let h := s.inHand pos id (.resumeTrack track 1 choice)
      let resumed := fun (tag : BitVec 16) (at' : Nat) => handReport c.rq
        { source := BitVec.ofNat 8 k.val, tag := tag, time := s.time, body := .trackEvent .resumed none at' 0 c.retire }
      let dueAgain := fun (step : CurrentStep) (old : Time) =>
        if rebase = true ∧ recDueMode step.record = some .rel then s.time + recDue step.record
        else if rebase = true ∧ recDueMode step.record = some .now then s.time else old
      let rejudged := fun (step : CurrentStep) (old : Time) (s1 : State) => carryOn k (judge k { step with due := some (dueAgain step old) }
        (s1.setTrack k { s1.track k with current := some { step with due := some (dueAgain step old) } }))
      (c.state = .paused →
        (∀ step old, c.pausedFrom = some .due → c.current = some step → step.due = some old →
          Completes row s (handAdminDone h .ok none (rejudged step old (resumed (recTag step.record) step.pos s.taken)))
          ∧ (s.time < dueAgain step old → Completes row s (handAdminDone h .ok none
              ((resumed (recTag step.record) step.pos s.taken).setTrack k { c with
                state := .due, current := some { step with due := some (dueAgain step old) }, dueTimer := some (dueAgain step old)
                timeoutTimer := none, holdTimer := none }))))
        ∧ (∀ step, c.pausedFrom = some .inputWait → c.current = some step →
          Completes row s (handAdminDone h .ok none (carryOn k (beginWait k step (resumed (recTag step.record) step.pos s.taken)))))
        ∧ (c.pausedFrom = some .empty → c.current = none →
          Completes row s (handAdminDone h .ok none (takeNext k (resumed (c.heldTag c.nextPos) c.nextPos s.taken)))))
      ∧ (c.state = .safe → c.safeFrom = some .started →
        (∀ u, (s.trip u).state = .fired → (s.trip u).mask.getLsbD k.val = false) → (∀ sub, c.safeCause ≠ some (.badStep sub)) →
        let s0 := s.taken.setTrack k { c with safeCause := none }
        (∀ step old, c.current = some step → step.waitStart = none → step.due = some old →
          Completes row s (handAdminDone h .ok none (rejudged step old (resumed (recTag step.record) step.pos s0))))
        ∧ (∀ step, c.current = some step → step.waitStart ≠ none →
          Completes row s (handAdminDone h .ok none (carryOn k (beginWait k step (resumed (recTag step.record) step.pos s0)))))
        ∧ (c.current = none →
          Completes row s (handAdminDone h .ok none (takeNext k (resumed (c.heldTag c.nextPos) c.nextPos s0))))))
    ∧ (∀ (id : BitVec 16) (track choice : Byte) (k : TrackId) (pos : Nat) (s : State), s.takes pos → track.toNat = k.val →
      (s.track k).state = .safe → (s.track k).safeFrom = some .notStarted → choice = 1 ∨ choice = 2 →
      (∀ u, (s.trip u).state = .fired → (s.trip u).mask.getLsbD k.val = false) →
      (∀ sub, (s.track k).safeCause ≠ some (.badStep sub)) →
      let c := s.track k
      let resumed : Report := { source := BitVec.ofNat 8 k.val, tag := c.heldTag c.herePos, time := s.time,
                                body := .trackEvent .resumed none c.herePos 0 c.retire }
      Completes (.resumeTrack id track 1 choice) s (handAdminDone (s.inHand pos id (.resumeTrack track 1 choice)) .ok none
        ((handReport c.rq resumed s.taken).setTrack k { c with state := .stopped, safeCause := none })))
    ∧ ∀ (id : BitVec 16) (track action choice : Byte) (s : State),
      let status := (commandEffect id (.resumeTrack track action choice) s).1
      let held := fun k : TrackId => ∃ u, (s.trip u).state = .fired ∧ (s.trip u).mask.getLsbD k.val = true
      (8 ≤ track.toNat → status = .answer .badTarget none)
      ∧ ∀ k : TrackId, track.toNat = k.val →
          ((s.track k).state ≠ .paused → (s.track k).state ≠ .safe → status = .answer .state none)
          ∧ ((s.track k).state = .paused ∨ (s.track k).state = .safe →
              (action = 2 → status = .answer .ok none)
              ∧ ((action ≠ 1 ∧ action ≠ 2) ∨ (action = 1 ∧ choice ≠ 1 ∧ choice ≠ 2) → status = .answer .badParam none)
              ∧ (action = 1 → choice = 1 ∨ choice = 2 →
                  ((s.track k).state = .paused → status = .answer .ok none)
                  ∧ ((s.track k).state = .safe → held k → status = .answer .tripActive none)
                  ∧ ((s.track k).state = .safe → ¬held k → (∃ sub, (s.track k).safeCause = some (.badStep sub)) →
                      status = .answer .stepInvalid none)
                  ∧ ((s.track k).state = .safe → ¬held k → (∀ sub, (s.track k).safeCause ≠ some (.badStep sub)) →
                      status = .answer .ok none)))

/-! ## Tracks: their own events -/

/-- Entry into SAFE, for every cause (R128, R129, R130, R53): timers idle, stop request cleared, start time dropped, cause and origin
recorded, all else of the track kept; every lane takes its safe-mode result; then SAFE is handed with the current step's position,
or the next position, and the tag the track holds there. -/
def Obligations.SafeEntry : Prop :=
  ∀ (k : TrackId) (cause : SafeCause) (origin : SafeFrom) (s : State),
    let c := s.track k
    let pos := (match c.current, c.prefetch with | some step, _ => step.pos | none, e :: _ => e.pos | none, [] => c.fetch)
    let tag := (match c.current, c.prefetch with | some step, _ => recTag step.record | none, e :: _ => recTag e.record | none, [] => 0)
    ∃ s1, enterSafe k cause origin s = handReport c.rq
        { source := BitVec.ofNat 8 k.val, tag := tag, time := s.time, body := .trackEvent .safe (some cause) pos 0 c.retire } s1
      ∧ s1 = { s with tracks := s1.tracks, lines := s1.lines } ∧ (∀ j, j ≠ k → s1.track j = s.track j)
      ∧ s1.track k = { c with
          state := .safe, safeCause := some cause, safeFrom := some origin, stopReq := none, startTime := none
          dueTimer := none, timeoutTimer := none, holdTimer := none }
      ∧ ∀ l, s1.line l = if (s.line l).ownedBy k then
          { s.line l with drive := safeResult (s.line l).safeMode (s.line l).drive } else s.line l

/-- The check of a record that becomes current, in the order of R21's table, read from the record's bytes (R191, R192).
A head that fails its check (R22, R28): it leaves the list, becomes the current step and stays it, and the track enters SAFE with
cause BAD-STEP and the subcode, as SafeEntry states; retire index, list, loop context and a read in flight are kept, and no
STEP-DONE is made. -/
def Obligations.RecordChecks : Prop :=
  (∀ (laneCount : Nat) (loopActive : Bool) (r : StepRecord),
      let sub := checkRecord laneCount loopActive r
      let kind := r[0].toNat
      let badDue := r[2].toNat = 0 ∨ 3 < r[2].toNat
      let outside := ∃ i, laneCount ≤ i ∧ (le16 r[16] r[17]).getLsbD i = true
      let badCond := r[17].toNat = 0 ∨ 5 < r[17].toNat ∨ r[18].toNat = 0 ∨ 2 < r[18].toNat
      (kind = 0 ∨ 6 < kind → sub = some .unknownKind)
      ∧ (kind = 1 ∨ kind = 2 ∨ kind = 3 ∨ kind = 6 → badDue → sub = some .badDue)
      ∧ (kind = 1 → ¬badDue → outside → sub = some .maskRange) ∧ (kind = 1 → ¬badDue → ¬outside → sub = none)
      ∧ (kind = 2 ∨ kind = 6 → ¬badDue → sub = none)
      ∧ (kind = 3 → ¬badDue → 48 ≤ r[16].toNat → sub = some .badLine)
      ∧ (kind = 3 → ¬badDue → r[16].toNat < 48 → sub = if badCond then some .badCondition else none)
      ∧ (kind = 4 → le16 r[16] r[17] = 0 → sub = some .loopCount)
      ∧ (kind = 4 → le16 r[16] r[17] ≠ 0 → sub = if loopActive then some .nestedLoop else none)
      ∧ (kind = 5 → sub = if loopActive then none else some .nextWithoutLoop))
    ∧ ∀ (k : TrackId) (e : Fetched) (rest : List Fetched) (sub : Subcode) (s : State), (s.track k).prefetch = e :: rest →
      checkRecord (s.track k).lanes.length (s.track k).loop.isSome e.record = some sub →
      let c := s.track k
      let step : CurrentStep := { record := e.record, pos := e.pos, due := none, waitStart := none
                                  pass := match c.loop with | some l => l.pass | none => 0 }
      let bad := s.setTrack k { c with prefetch := rest, current := some step }
      takeNext k s = enterSafe k (.badStep sub) .started bad
        ∧ ((takeNext k s).track k).current = some step ∧ ((takeNext k s).track k).state = .safe
        ∧ ((takeNext k s).track k).safeCause = some (.badStep sub) ∧ ((takeNext k s).track k).retire = c.retire
        ∧ ((takeNext k s).track k).prefetch = rest ∧ ((takeNext k s).track k).loop = c.loop
        ∧ ((takeNext k s).track k).read = c.read

/-- START_TIME_REACHED of an ARMED track (R66, R28): the reference time takes the start time, which is dropped, STARTED is handed with
the head's position and tag or, with an empty list, the fetch index, and the track takes its next record; with an empty list it is
EMPTY with its hold timer set unless the hold limit is 0 (R48). Before the moment there is no such event (log entry 3). That STARTED
carries the retire index before any record is taken is the model's reading (log entry 25). -/
def Obligations.StartTimeStartsTrack : Prop :=
  ∀ (k : TrackId) (start : Time) (s : State), (s.track k).state = .armed → (s.track k).startTime = some start →
    let c := s.track k
    let started := fun (tag : BitVec 16) (pos : Nat) =>
      handReport c.rq { source := BitVec.ofNat 8 k.val, tag := tag, time := s.time, body := .trackEvent .started none pos 0 c.retire }
        (s.setTrack k { c with refTime := start, startTime := none })
    (s.time < start → Completes (.startTimeReached k) s s)
    ∧ (start ≤ s.time → c.current = none →
        (∀ e rest, c.prefetch = e :: rest → Completes (.startTimeReached k) s (takeNext k (started (recTag e.record) e.pos)))
        ∧ (c.prefetch = [] → Completes (.startTimeReached k) s (takeNext k (started 0 c.fetch))
            ∧ Completes (.startTimeReached k) s
              ((handReport c.rq { source := BitVec.ofNat 8 k.val, tag := 0, time := s.time,
                                  body := .trackEvent .started none c.fetch 0 c.retire } s).setTrack k { c with
                state := .empty, refTime := start, startTime := none, current := none, dueTimer := none, timeoutTimer := none
                holdTimer := if c.holdLimit = 0 then none else some (s.time + c.holdLimit.setWidth 64 * 100) })))

/-- DUE_TIMER_EXPIRY (R34): the current step takes effect with the timers idle and is not flagged late, and the track goes on from it
(R29). A LEVEL that takes effect (R38, R32, R35): the masked lanes take their value bits and the others keep their drive, the
reference time takes the due time, and the step retires with APPLIED, or APPLIED-LATE when late, as DueMarkAndEndTakeEffect states
of every retiring step.
In full for a LEVEL outside a loop, with an empty list, no stop requested, no notify and no retire word (R30, R48): the retire index
moves past the step, applied counts, and the track is EMPTY with nothing reported. -/
def Obligations.DueLevelTakesEffect : Prop :=
  (∀ (k : TrackId) (step : CurrentStep) (moment : Time) (s : State), (s.track k).state = .due → (s.track k).current = some step →
      (s.track k).dueTimer = some moment → moment ≤ s.time →
      Completes (.dueTimerExpiry k) s (carryOn k (takeEffect k step false
        (s.setTrack k { s.track k with dueTimer := none, timeoutTimer := none, holdTimer := none }))))
    ∧ (∀ (k : TrackId) (step : CurrentStep) (d : Time) (late : Bool) (s : State), step.due = some d → recKind step.record = some .level →
      ∃ s1, takeEffect k step late s = retireStep k step (if late then .appliedLate else .applied) s1
        ∧ s1 = { s with tracks := s1.tracks, lines := s1.lines } ∧ (∀ j, j ≠ k → s1.track j = s.track j)
        ∧ s1.track k = { s.track k with refTime := d }
        ∧ (∀ l, (s.line l).owner = none → s1.line l = s.line l)
        ∧ ∀ l o, (s.line l).owner = some o → s1.line l =
            if o.track = k ∧ (recMask step.record).getLsbD o.lane.val = true then
              { s.line l with drive := if (recValue step.record).getLsbD o.lane.val then .high else .low }
            else s.line l)
    ∧ ∀ (k : TrackId) (step : CurrentStep) (d moment : Time) (s : State), (s.track k).state = .due → (s.track k).current = some step →
      step.due = some d → (s.track k).dueTimer = some moment → moment ≤ s.time → recKind step.record = some .level →
      recNotify step.record = false → (s.track k).loop = none → (s.track k).stopReq = none → (s.track k).prefetch = [] →
      (s.track k).retireAddr = 0 →
      let c := s.track k
      ∃ t, Completes (.dueTimerExpiry k) s t
        ∧ t = { s with tracks := t.tracks, lines := t.lines } ∧ (∀ j, j ≠ k → t.track j = s.track j)
        ∧ t.track k = { c with
            state := .empty, current := none, refTime := d, retire := (step.pos + 1) % c.sqSize, applied := c.applied + 1
            dueTimer := none, timeoutTimer := none
            holdTimer := if c.holdLimit = 0 then none else some (s.time + c.holdLimit.setWidth 64 * 100) }
        ∧ (∀ l, (s.line l).owner = none → t.line l = s.line l)
        ∧ ∀ l o, (s.line l).owner = some o → t.line l =
            if o.track = k ∧ (recMask step.record).getLsbD o.lane.val = true then
              { s.line l with drive := if (recValue step.record).getLsbD o.lane.val then .high else .low }
            else s.line l

/-- A step that retires (R30, R23, R45, R56, R57, R54, R55): outside a loop the retire index moves past it and inside one stays, a moved
index is written to the retire word unless there is none or a write of it is in flight, the counter of the outcome moves, with notify
STEP-DONE is handed with the index as it now stands, and the unreported count returns to 0 when it is posted and rises, up to 255,
when not; then a requested stop takes effect, or the step is dropped and the track takes its next record.
A MARK that takes effect (R39, R32): the reference time takes the due time, nothing is driven, and the step retires.
An END that takes effect (R40, R55): the same with any loop closed; then the track is STOPPED with lanes, list, fetch index and epoch
kept, ENDED is handed with the END's position and, as the model reads it, the END's tag (log entry 10), and then a requested stop
takes effect.
In full for a MARK with notify, outside a loop, with an empty list, no stop requested and no retire word. -/
def Obligations.DueMarkAndEndTakeEffect : Prop :=
  (∀ (k : TrackId) (step : CurrentStep) (o : StepOutcome) (s : State),
      let c := s.track k
      let after := if c.loop = none then (step.pos + 1) % c.sqSize else c.retire
      let writes := c.retire ≠ after ∧ c.retireAddr ≠ 0 ∧ c.retireWrite = none
      let r : Report := { source := BitVec.ofNat 8 k.val, tag := recTag step.record, time := s.time,
                          body := .stepDone o (step.due.getD 0) step.pos step.pass after c.unreported }
      ∃ s1 s2 : State,
        s1 = { s with tracks := s1.tracks, link := { s.link with writes := s1.link.writes, out := s1.link.out } }
        ∧ (∀ j, j ≠ k → s1.track j = s.track j)
        ∧ s1.track k = { c with
            retire := after, retireWrite := if writes then some { value := after, earlier := false } else c.retireWrite
            applied := if o = .skipped then c.applied else c.applied + 1
            skipped := if o = .skipped then c.skipped + 1 else c.skipped }
        ∧ s1.link.writes = s.link.writes ++ (if writes then
            [{ addr := c.retireAddr, data := leBytes 4 32 (BitVec.ofNat 32 after), purpose := .retireWord k }] else [])
        ∧ (recNotify step.record = false → s2 = s1)
        ∧ (recNotify step.record = true → s2 = (handReport c.rq r s1).setTrack k { s1.track k with
            unreported := if s.decision c.rq = .posted then 0 else if c.unreported = 255 then 255 else c.unreported + 1 })
        ∧ (c.stopReq = none → retireStep k step o s = .goOn (s2.setTrack k { s2.track k with current := none }))
        ∧ ∀ lines, c.stopReq = some lines → retireStep k step o s = .rest (stopEffect k lines s2))
    ∧ (∀ (k : TrackId) (step : CurrentStep) (d : Time) (late : Bool) (s : State), step.due = some d → recKind step.record = some .mark →
      takeEffect k step late s
        = retireStep k step (if late then .appliedLate else .applied) (s.setTrack k { s.track k with refTime := d }))
    ∧ (∀ (k : TrackId) (step : CurrentStep) (d : Time) (late : Bool) (s : State), step.due = some d →
      recKind step.record = some .finish →
      let c := s.track k
      let after := (step.pos + 1) % c.sqSize
      let writes := c.retire ≠ after ∧ c.retireAddr ≠ 0 ∧ c.retireWrite = none
      let r : Report := { source := BitVec.ofNat 8 k.val, tag := recTag step.record, time := s.time,
                          body := .stepDone (if late then .appliedLate else .applied) d step.pos step.pass after c.unreported }
      ∃ s1 s2 ended : State,
        s1 = { s with tracks := s1.tracks, link := { s.link with writes := s1.link.writes, out := s1.link.out } }
        ∧ (∀ j, j ≠ k → s1.track j = s.track j)
        ∧ s1.track k = { c with
            refTime := d, loop := none, retire := after, applied := c.applied + 1
            retireWrite := if writes then some { value := after, earlier := false } else c.retireWrite }
        ∧ s1.link.writes = s.link.writes ++ (if writes then
            [{ addr := c.retireAddr, data := leBytes 4 32 (BitVec.ofNat 32 after), purpose := .retireWord k }] else [])
        ∧ (recNotify step.record = false → s2 = s1)
        ∧ (recNotify step.record = true → s2 = (handReport c.rq r s1).setTrack k { s1.track k with
            unreported := if s.decision c.rq = .posted then 0 else if c.unreported = 255 then 255 else c.unreported + 1 })
        ∧ ended = handReport c.rq { source := BitVec.ofNat 8 k.val, tag := recTag step.record, time := s.time,
                                    body := .trackEvent .ended none step.pos 0 after }
            (s2.setTrack k { s2.track k with
              state := .stopped, current := none, dueTimer := none, timeoutTimer := none, holdTimer := none })
        ∧ (c.stopReq = none → takeEffect k step late s = .rest ended)
        ∧ ∀ lines, c.stopReq = some lines → takeEffect k step late s = .rest (stopEffect k lines ended))
    ∧ (∀ (k : TrackId) (step : CurrentStep) (d moment : Time) (s : State), (s.track k).state = .due → (s.track k).current = some step →
      step.due = some d → (s.track k).dueTimer = some moment → moment ≤ s.time → recKind step.record = some .mark →
      recNotify step.record = true → (s.track k).loop = none → (s.track k).stopReq = none → (s.track k).prefetch = [] →
      (s.track k).retireAddr = 0 →
      let c := s.track k
      let after := (step.pos + 1) % c.sqSize
      let r : Report := { source := BitVec.ofNat 8 k.val, tag := recTag step.record, time := s.time,
                          body := .stepDone .applied d step.pos step.pass after c.unreported }
      Completes (.dueTimerExpiry k) s ((handReport c.rq r s).setTrack k { c with
        state := .empty, current := none, refTime := d, retire := after, applied := c.applied + 1
        unreported := if s.decision c.rq = .posted then 0 else if c.unreported = 255 then 255 else c.unreported + 1
        dueTimer := none, timeoutTimer := none
        holdTimer := if c.holdLimit = 0 then none else some (s.time + c.holdLimit.setWidth 64 * 100) }))
    ∧ ∀ (k : TrackId) (step : CurrentStep) (d moment : Time) (s : State), (s.track k).state = .due → (s.track k).current = some step →
      step.due = some d → (s.track k).dueTimer = some moment → moment ≤ s.time → recKind step.record = some .finish →
      recNotify step.record = false → (s.track k).stopReq = none → (s.track k).retireAddr = 0 →
      let c := s.track k
      let after := (step.pos + 1) % c.sqSize
      Completes (.dueTimerExpiry k) s
        ((handReport c.rq { source := BitVec.ofNat 8 k.val, tag := recTag step.record, time := s.time,
                            body := .trackEvent .ended none step.pos 0 after } s).setTrack k { c with
          state := .stopped, current := none, loop := none, refTime := d, retire := after, applied := c.applied + 1
          dueTimer := none, timeoutTimer := none, holdTimer := none })

/-- A WAIT that takes effect begins, on time or late (R41), and restarts the same way at a CONTINUE (R77): its wait start is the moment;
HIGH or LOW that the accepted level already meets retires it at once with WAIT-MET and the moment as reference time; otherwise the
track is in INPUT-WAIT with its timeout timer set, or idle for a timeout of 0.
TIMEOUT_TIMER_EXPIRY (R43): under FAULT the track enters SAFE with cause WAIT-TIMEOUT, its step current; under GO-ON the reference
time takes the wait start plus the timeout and the WAIT retires with WAIT-TIMEOUT.
HOLD_TIMER_EXPIRY (R50): an EMPTY track whose hold timer has expired enters SAFE with cause STARVED, from a started flow.
An acceptance that reaches a track (R42): in INPUT-WAIT on that line, one that meets the condition retires the WAIT with WAIT-MET at
the acceptance time; one that does not, or that reaches a track in another state, leaves the state as it is.
A retiring step is as DueMarkAndEndTakeEffect states; the two ends of a wait are given in full for a track outside a loop with an
empty list, no notify, no stop requested and no retire word. -/
def Obligations.WaitsEnd : Prop :=
  (∀ (k : TrackId) (step : CurrentStep) (l : LineId) (cond : WaitCond) (s : State), recLine step.record = some l →
      recCond step.record = some cond →
      let c := s.track k
      let begun := { step with waitStart := some s.time }
      let holds := (cond = .high ∧ (s.line l).accepted = .high) ∨ (cond = .low ∧ (s.line l).accepted = .low)
      (recKind step.record = some .wait → ∀ late, takeEffect k step late s = beginWait k step s)
      ∧ (holds → beginWait k step s
          = retireStep k begun .waitMet (s.setTrack k { c with current := some begun, refTime := s.time }))
      ∧ (¬holds → beginWait k step s = .rest (s.setTrack k { c with
          state := .inputWait, current := some begun, dueTimer := none, holdTimer := none
          timeoutTimer := if recTimeout step.record = 0 then none else some (s.time + (recTimeout step.record).setWidth 64) })))
    ∧ (∀ (k : TrackId) (step : CurrentStep) (w moment : Time) (s : State), (s.track k).state = .inputWait →
      (s.track k).current = some step → step.waitStart = some w → (s.track k).timeoutTimer = some moment → moment ≤ s.time →
      let c := s.track k
      (recOnTimeout step.record = some .fault → Completes (.timeoutTimerExpiry k) s (enterSafe k .waitTimeout .started s))
      ∧ (recOnTimeout step.record = some .goOn → Completes (.timeoutTimerExpiry k) s (carryOn k (retireStep k step .waitTimeout
          (s.setTrack k { c with refTime := w + (recTimeout step.record).setWidth 64
                                 dueTimer := none, timeoutTimer := none, holdTimer := none }))))
      ∧ (recOnTimeout step.record = some .goOn → recNotify step.record = false → c.loop = none → c.stopReq = none →
          c.prefetch = [] → c.retireAddr = 0 →
          Completes (.timeoutTimerExpiry k) s (s.setTrack k { c with
            state := .empty, current := none, refTime := w + (recTimeout step.record).setWidth 64
            retire := (step.pos + 1) % c.sqSize, applied := c.applied + 1, dueTimer := none, timeoutTimer := none
            holdTimer := if c.holdLimit = 0 then none else some (s.time + c.holdLimit.setWidth 64 * 100) })))
    ∧ (∀ (k : TrackId) (moment : Time) (s : State), (s.track k).state = .empty → (s.track k).holdTimer = some moment → moment ≤ s.time →
      Completes (.holdTimerExpiry k) s (enterSafe k .starved .started s))
    ∧ ∀ (k : TrackId) (l : LineId) (level : Level) (step : CurrentStep) (cond : WaitCond) (s : State),
      let c := s.track k
      let met := cond = .edge ∨ (level = .high ∧ (cond = .high ∨ cond = .rise)) ∨ (level = .low ∧ (cond = .low ∨ cond = .fall))
      (c.state ≠ .inputWait → waitAcceptance k l level s = s)
      ∧ (c.state = .inputWait → c.current = some step → ∀ l', recLine step.record = some l' → l' ≠ l → waitAcceptance k l level s = s)
      ∧ (c.state = .inputWait → c.current = some step → recLine step.record = some l → recCond step.record = some cond →
          (¬met → waitAcceptance k l level s = s)
          ∧ (met → waitAcceptance k l level s = carryOn k (retireStep k step .waitMet
              (s.setTrack k { c with refTime := s.time, dueTimer := none, timeoutTimer := none, holdTimer := none })))
          ∧ (met → recNotify step.record = false → c.loop = none → c.stopReq = none → c.prefetch = [] → c.retireAddr = 0 →
              waitAcceptance k l level s = s.setTrack k { c with
                state := .empty, current := none, refTime := s.time, retire := (step.pos + 1) % c.sqSize
                applied := c.applied + 1, dueTimer := none, timeoutTimer := none
                holdTimer := if c.holdLimit = 0 then none else some (s.time + c.holdLimit.setWidth 64 * 100) }))

/-- The judgment of a step (R33, R35, R36) as it becomes current at a CONTINUE or in a chain: early means DUE; late raises the late
counter and, under FAULT, means SAFE with cause LATE, under APPLY the effect flagged late, under SKIP a skipped step but for an END,
which takes effect flagged late; the comparison does not wrap.
A track takes its next record (R28, R29, R31, R48): with an empty list it is EMPTY; a checked timed head becomes current with its due
time and the pass of the loop, is judged, and the track goes on from it.
A valid LOOP and a valid NEXT at the head of the list (R45, R46, R47): a LOOP opens its context and the next record is taken; a NEXT
with more passes jumps to the loop start with a stale read, an empty list and the track EMPTY; a NEXT with one pass closes the loop,
the retire index moves past it with its retire word (R23), and the next record is taken. -/
def Obligations.JudgmentAndLoops : Prop :=
  (∀ (k : TrackId) (step : CurrentStep) (d : Time) (s : State), step.due = some d →
      let c := s.track k
      let late := d.toNat + c.tolerance.toNat < s.time.toNat
      (s.time.toNat < d.toNat → judge k step s = .rest (s.setTrack k { c with
        state := .due, dueTimer := some d, timeoutTimer := none, holdTimer := none }))
      ∧ (d.toNat ≤ s.time.toNat → ¬late → judge k step s = takeEffect k step false s)
      ∧ (late → c.latePolicy = .fault →
          judge k step s = .rest (enterSafe k .late .started (s.setTrack k { c with late := c.late + 1 })))
      ∧ (late → c.latePolicy = .apply → judge k step s = takeEffect k step true (s.setTrack k { c with late := c.late + 1 }))
      ∧ (late → c.latePolicy = .skip → recKind step.record = some .finish →
          judge k step s = takeEffect k step true (s.setTrack k { c with late := c.late + 1 }))
      ∧ (late → c.latePolicy = .skip → recKind step.record ≠ some .finish →
          judge k step s = retireStep k step .skipped (s.setTrack k { c with late := c.late + 1, refTime := d })))
    ∧ (∀ (k : TrackId) (s : State),
      let c := s.track k
      carryOn k (.rest s) = s ∧ carryOn k (.goOn s) = takeNext k s
      ∧ (c.prefetch = [] → takeNext k s = s.setTrack k { c with
          state := .empty, current := none, dueTimer := none, timeoutTimer := none
          holdTimer := if c.holdLimit = 0 then none else some (s.time + c.holdLimit.setWidth 64 * 100) })
      ∧ ∀ e rest d, c.prefetch = e :: rest → checkRecord c.lanes.length c.loop.isSome e.record = none → Timed e.record →
          (recDueMode e.record = some .abs ∧ d = recDue e.record) ∨ (recDueMode e.record = some .rel ∧ d = c.refTime + recDue e.record)
            ∨ (recDueMode e.record = some .now ∧ d = s.time) →
          let step : CurrentStep := { record := e.record, pos := e.pos, due := some d, waitStart := none
                                      pass := match c.loop with | some l => l.pass | none => 0 }
          takeNext k s = carryOn k (judge k step (s.setTrack k { c with prefetch := rest, current := some step })))
    ∧ ∀ (k : TrackId) (e : Fetched) (rest : List Fetched) (s : State), (s.track k).prefetch = e :: rest →
      checkRecord (s.track k).lanes.length (s.track k).loop.isSome e.record = none →
      let c := s.track k
      let after := (e.pos + 1) % c.sqSize
      (recKind e.record = some .loop → takeNext k s = takeNext k (s.setTrack k { c with
        prefetch := rest, current := none
        loop := some { start := after, pos := e.pos, remaining := recCount e.record, pass := 1 } }))
      ∧ (∀ l, c.loop = some l → recKind e.record = some .next →
          let writes := c.retire ≠ after ∧ c.retireAddr ≠ 0 ∧ c.retireWrite = none
          (1 < l.remaining.toNat → takeNext k s = s.setTrack k { c with
            state := .empty, prefetch := [], current := none, fetch := l.start, epoch := c.epoch + 1
            read := c.read.map fun r => { r with stale := true }
            loop := some { l with remaining := l.remaining - 1, pass := l.pass + 1 }
            dueTimer := none, timeoutTimer := none
            holdTimer := if c.holdLimit = 0 then none else some (s.time + c.holdLimit.setWidth 64 * 100) })
          ∧ (l.remaining.toNat ≤ 1 → ∃ s1, takeNext k s = takeNext k s1
              ∧ s1 = { s with tracks := s1.tracks, link := { s.link with writes := s1.link.writes, out := s1.link.out } }
              ∧ (∀ j, j ≠ k → s1.track j = s.track j)
              ∧ s1.track k = { c with
                  prefetch := rest, current := none, loop := none, retire := after
                  retireWrite := if writes then some { value := after, earlier := false } else c.retireWrite }
              ∧ s1.link.writes = s.link.writes ++ (if writes then
                  [{ addr := c.retireAddr, data := leBytes 4 32 (BitVec.ofNat 32 after), purpose := .retireWord k }] else [])))

/-! ## The trip units and the report queue commands -/

/-- SET_TRIP accepted (R118, R119): source, condition and mask are stored whatever the enable, the last fire kept; enable 0 makes the
unit DISARMED; enable 1 makes it ARMED, and it fires at once with cause LEVEL, without edge time and before the answer, when its
condition names the accepted level of its source line.
The refusals of SET_TRIP in their order (R118). -/
def Obligations.SetTripResult : Prop :=
  (∀ (id : BitVec 16) (p : SetTripParams) (u : UnitId) (source : LineId) (cond : TripCond) (pos : Nat) (s : State), s.takes pos →
      p.unit.toNat = u.val → p.source.toNat = source.val → tripCond? p.condition = some cond → (s.trip u).state ≠ .fired →
      let h := s.inHand pos id (.setTrip p)
      let stored := fun st : TripState => s.taken.setTrip u
        { state := st, source := source, condition := cond, mask := p.mask, lastFire := (s.trip u).lastFire }
      let holds := (cond = .high ∧ (s.line source).accepted = .high) ∨ (cond = .low ∧ (s.line source).accepted = .low)
      (p.enable = 0 → Completes (.setTrip id p) s (handAdminDone h .ok none (stored .disarmed)))
      ∧ (p.enable = 1 → ¬holds → Completes (.setTrip id p) s (handAdminDone h .ok none (stored .armed)))
      ∧ (p.enable = 1 → holds →
          Completes (.setTrip id p) s (handAdminDone h .ok none (fire u .level none 0 (stored .armed)))))
    ∧ ∀ (id : BitVec 16) (p : SetTripParams) (pos : Nat) (s : State), s.takes pos →
      let refused := fun status => Completes (.setTrip id p) s (handAdminDone (s.inHand pos id (.setTrip p)) status none s.taken)
      let bad := 48 ≤ p.source.toNat ∨ p.condition = 0 ∨ 4 < p.condition.toNat ∨ 1 < p.enable.toNat
      (2 ≤ p.unit.toNat → refused .badTarget)
      ∧ ∀ u : UnitId, p.unit.toNat = u.val → (bad → refused .badParam) ∧ (¬bad → (s.trip u).state = .fired → refused .busy)

/-- A fire of a unit, whatever its cause (R122, R123, R124): FIRED with the last fire recorded, every track of the mask that is bound
and not SAFE enters SAFE in some order with the unit's cause, started or not as its state was, each handing its SAFE report, no
other track changes, and TRIP is handed to RQ0 last. The free order is the model's choice (log entry 4).
An acceptance that reaches a unit (R120): an ARMED unit of that line whose condition it meets fires with cause EDGE or LEVEL, the
acceptance's edge time and tag 0; any other unit, and any other acceptance, does nothing.
FIRE_TRIP (R121, R122, R123, R124): refused with STATE on a FIRED unit; otherwise the unit fires with cause HOST. In full for a mask
that names at most one track to move: the unit is FIRED with the last fire recorded, the named track in STOPPED or ARMED enters SAFE
not started and a running or PAUSED one SAFE started, both with the unit's cause, UNBOUND and SAFE tracks stay, and TRIP with the
command id as tag goes to RQ0 after the SAFE report. CLEAR_TRIP (R125): refused while not FIRED or while a level condition still holds; otherwise ARMED, its last fire
the answer's result. A unit number of 2 or more is refused with BAD-TARGET. -/
def Obligations.FireAndClearTrip : Prop :=
  (∀ (u : UnitId) (cause : FireCause) (edge : Option Time) (tag : BitVec 16) (s : State),
      let c := s.trip u
      let moves := fun k : TrackId => c.mask.getLsbD k.val = true ∧ (s.track k).state ≠ .unbound ∧ (s.track k).state ≠ .safe
      let origin := fun k : TrackId => if (s.track k).state = .stopped ∨ (s.track k).state = .armed then SafeFrom.notStarted else .started
      ∃ (moved : BitVec 8) (order : List TrackId) (n : Nat),
        (∀ k : TrackId, moved.getLsbD k.val = true ↔ moves k) ∧ order.Nodup ∧ (∀ k, k ∈ order ↔ moves k)
        ∧ let s1 := { s.setTrip u { c with state := .fired, lastFire := some { cause := cause, time := s.time, moved := moved } } with
            freeIndex := n }
          let s2 := order.foldl (fun s' k => enterSafe k (.trip u) (origin k) s') s1
          fire u cause edge tag s = handReport 0
              { source := BitVec.ofNat 8 u.val, tag := tag, time := s.time, body := .trip cause moved edge } s2
          ∧ (∀ k, ¬moves k → s2.track k = s.track k)
          ∧ (∀ k, moves k → s2.track k = { s.track k with
              state := .safe, safeCause := some (.trip u), safeFrom := some (origin k), stopReq := none, startTime := none
              dueTimer := none, timeoutTimer := none, holdTimer := none })
          ∧ (∀ v, v ≠ u → s2.trip v = s.trip v) ∧ s2.time = s.time ∧ s2.port = s.port ∧ s2.admin = s.admin)
    ∧ (∀ (u : UnitId) (l : LineId) (level : Level) (edge : Time) (s : State),
      let c := s.trip u
      let meets := (level = .high ∧ (c.condition = .rise ∨ c.condition = .high)) ∨ (level = .low ∧ (c.condition = .fall ∨ c.condition = .low))
      (c.state ≠ .armed ∨ c.source ≠ l ∨ ¬meets → tripAcceptance u l level edge s = s)
      ∧ (c.state = .armed → c.source = l → meets →
          (c.condition = .rise ∨ c.condition = .fall → tripAcceptance u l level edge s = fire u .edge (some edge) 0 s)
          ∧ (c.condition = .high ∨ c.condition = .low → tripAcceptance u l level edge s = fire u .level (some edge) 0 s)))
    ∧ (∀ (id : BitVec 16) (unit : Byte) (u : UnitId) (pos : Nat) (s : State), s.takes pos → unit.toNat = u.val →
      let c := s.trip u
      let fires := s.inHand pos id (.fireTrip unit)
      let clears := s.inHand pos id (.clearTrip unit)
      let moves := fun k : TrackId => c.mask.getLsbD k.val = true ∧ (s.track k).state ≠ .unbound ∧ (s.track k).state ≠ .safe
      let trip := fun moved : BitVec 8 => ({ source := BitVec.ofNat 8 u.val, tag := id, time := s.time, body := .trip .host moved none } : Report)
      let fired := fun moved : BitVec 8 => s.taken.setTrip u
        { c with state := .fired, lastFire := some { cause := .host, time := s.time, moved := moved } }
      let holds := (c.condition = .high ∧ (s.line c.source).accepted = .high) ∨ (c.condition = .low ∧ (s.line c.source).accepted = .low)
      (c.state = .fired → Completes (.fireTrip id unit) s (handAdminDone fires .state none s.taken))
      ∧ (c.state ≠ .fired → Completes (.fireTrip id unit) s (handAdminDone fires .ok none (fire u .host none id s.taken)))
      ∧ (c.state ≠ .fired → (∀ k, ¬moves k) →
          Completes (.fireTrip id unit) s (handAdminDone fires .ok none (handReport 0 (trip 0) (fired 0))))
      ∧ (c.state ≠ .fired → ∀ k, moves k → (∀ j, moves j → j = k) →
          Completes (.fireTrip id unit) s (handAdminDone fires .ok none (handReport 0 (trip (1 <<< k.val))
            (enterSafe k (.trip u) (if (s.track k).state = .stopped ∨ (s.track k).state = .armed then .notStarted else .started)
              (fired (1 <<< k.val))))))
      ∧ (c.state ≠ .fired → Completes (.clearTrip id unit) s (handAdminDone clears .state none s.taken))
      ∧ (c.state = .fired → holds → Completes (.clearTrip id unit) s (handAdminDone clears .tripActive none s.taken))
      ∧ (c.state = .fired → ¬holds → ∀ r, c.lastFire = some r →
          Completes (.clearTrip id unit) s (handAdminDone clears .ok (some (.fire r)) (s.taken.setTrip u { c with state := .armed }))))
    ∧ ∀ (id : BitVec 16) (unit : Byte) (pos : Nat) (s : State), s.takes pos → 2 ≤ unit.toNat →
      Completes (.fireTrip id unit) s (handAdminDone (s.inHand pos id (.fireTrip unit)) .badTarget none s.taken)
      ∧ Completes (.clearTrip id unit) s (handAdminDone (s.inHand pos id (.clearTrip unit)) .badTarget none s.taken)

/-- CREATE_RQ accepted (R149, R155): the entry and the moderation context of the queue. DELETE_RQ accepted (R150, R151, R161): with no
write in flight the queue is ABSENT at once and the answer carries its state and counts; otherwise it is closing and the engine
rests in EXECUTING with that result. No other queue changes.
A closing queue whose last write in flight completes becomes ABSENT with every field and its moderation context at their reset
values, and the DELETE-RQ that waits for it is answered with the result fixed at its taking (R151); the completion is counted first, and a
message it provokes is sent (R161); in FAULTED neither happens (R148, R175).
The refusals of CREATE_RQ and of DELETE_RQ in their order (R149, R150). -/
def Obligations.CreateAndDeleteRq : Prop :=
  (∀ (id : BitVec 16) (q : QueueId) (pos : Nat) (s : State), s.takes pos → q ≠ 0 →
      (∀ (p : CreateRqParams) (vector : VectorId), p.queue.toNat = q.val → (s.rq q).state = .absent → PowerBetween 16 4096 p.size.toNat →
        32 ∣ p.base.toNat → p.vector.toNat = vector.val → p.threshold ≠ 0 → p.enable = 0 ∨ p.enable = 1 →
        Completes (.createRq id p) s (handAdminDone (s.inHand pos id (.createRq p)) .ok none (s.taken.setRq q {
          state := .active, closing := false, base := p.base, size := p.size.toNat, write := 0, release := 0, lap := false, pass := true
          seq := 0, counts := OverflowCounts.zero, inFlight := 0
          irq := { enable := p.enable == 1, vector := vector, threshold := p.threshold.toNat, delay := p.delay, unsignalled := 0
                   timer := none } })))
      ∧ ∀ queue : Byte, queue.toNat = q.val → (s.rq q).state ≠ .absent →
          (∀ k, (s.track k).state ≠ .unbound → (s.track k).rq ≠ q) →
          (∀ l, (s.line l).captureMode ≠ .none → (s.line l).captureRq ≠ q) →
          let h := s.inHand pos id (.deleteRq queue)
          let result := AdminResult.deleted (s.rq q).state (s.rq q).counts
          ((s.rq q).inFlight = 0 →
            Completes (.deleteRq id queue) s (handAdminDone h .ok (some result) (s.taken.setRq q ReportQueue.absent)))
          ∧ ((s.rq q).inFlight ≠ 0 → Completes (.deleteRq id queue) s
              ((s.taken.setRq q { s.rq q with closing := true }).setEngine (.executing h q result))))
    ∧ (∀ (id : BitVec 16) (p : CreateRqParams) (pos : Nat) (s : State), s.takes pos →
      let refused := fun status => Completes (.createRq id p) s (handAdminDone (s.inHand pos id (.createRq p)) status none s.taken)
      let bad := ¬PowerBetween 16 4096 p.size.toNat ∨ ¬32 ∣ p.base.toNat ∨ 8 ≤ p.vector.toNat ∨ p.threshold = 0 ∨ 1 < p.enable.toNat
      (p.queue = 0 ∨ 8 ≤ p.queue.toNat → refused .badTarget)
      ∧ ∀ q : QueueId, q ≠ 0 → p.queue.toNat = q.val →
          ((s.rq q).state ≠ .absent → refused .state) ∧ ((s.rq q).state = .absent → bad → refused .badParam))
    ∧ (∀ (id : BitVec 16) (queue : Byte) (pos : Nat) (s : State), s.takes pos →
      let refused := fun status => Completes (.deleteRq id queue) s (handAdminDone (s.inHand pos id (.deleteRq queue)) status none s.taken)
      (queue = 0 ∨ 8 ≤ queue.toNat → refused .badTarget)
      ∧ ∀ q : QueueId, q ≠ 0 → queue.toNat = q.val →
          ((s.rq q).state = .absent → refused .state)
          ∧ ((s.rq q).state ≠ .absent →
              (∃ k, (s.track k).state ≠ .unbound ∧ (s.track k).rq = q)
                ∨ (∃ l, (s.line l).captureMode ≠ .none ∧ (s.line l).captureRq = q) → refused .queueInUse))
    ∧ ∀ (q : QueueId) (s : State), (s.writeOf (WritePurpose.isEntryOf q)).isSome → (s.rq q).state ≠ .absent →
      (s.rq q).closing = true → (s.rq q).inFlight = 1 →
      let m := (s.rq q).irq
      let sends := m.enable = true ∧ m.unsignalled + 1 = m.threshold ∧ s.link.msiAllowed = true
      let drained := (s.dropWrite (WritePurpose.isEntryOf q)).setRq q ReportQueue.absent
      let signalled := { drained with link := { drained.link with
        out := if sends ∧ s.link.masked[m.vector] = false then s.link.out ++ [.message m.vector] else s.link.out
        marks := if sends ∧ s.link.masked[m.vector] = true then s.link.marks.set m.vector true else s.link.marks } }
      (∀ h result, s.live → s.admin.engine = .executing h q result →
        Completes (.entryWriteCompletion q) s (handAdminDone h .ok (some result) signalled))
      ∧ (s.port.dev = .faulted → s.admin.engine = .idleWait → Completes (.entryWriteCompletion q) s drained)

/-- SET_RQ_INTERRUPT accepted (R159, R160): the four settings are stored; disabling clears count and timer; enabling sends one message
on the new vector when a completed entry is outstanding; enabled before and after, a count at or above the new threshold sends at
once, a delay of 0 makes the timer idle, and a timer that is idle over counted entries is set anew.
The refusals of SET_RQ_INTERRUPT in their order (R159). -/
def Obligations.SetRqInterruptResult : Prop :=
  (∀ (id : BitVec 16) (p : RqInterruptParams) (q : QueueId) (vector : VectorId) (pos : Nat) (s : State), s.takes pos →
      p.queue.toNat = q.val → (s.rq q).state ≠ .absent → p.vector.toNat = vector.val → p.threshold ≠ 0 → p.enable = 0 ∨ p.enable = 1 →
      let c := s.rq q
      let m := c.irq
      let stored := fun (unsignalled : Nat) (timer : Option Time) => s.taken.setRq q { c with irq := {
        enable := p.enable == 1, vector := vector, threshold := p.threshold.toNat, delay := p.delay, unsignalled := unsignalled, timer := timer } }
      let answers := fun s2 : State => Completes (.setRqInterrupt id p) s (handAdminDone (s.inHand pos id (.setRqInterrupt p)) .ok none s2)
      let done := outstanding c - c.inFlight
      (p.enable = 0 → m.enable = true → answers (stored 0 none))
      ∧ (p.enable = 0 → m.enable = false → answers (stored m.unsignalled m.timer))
      ∧ (p.enable = 1 → m.enable = false → done = 0 → answers (stored m.unsignalled m.timer))
      ∧ (p.enable = 1 → m.enable = false → done ≠ 0 → answers ((stored 0 none).sendMessage vector))
      ∧ (p.enable = 1 → m.enable = true → m.unsignalled ≠ 0 → p.threshold.toNat ≤ m.unsignalled →
          answers ((stored 0 none).sendMessage vector))
      ∧ (p.enable = 1 → m.enable = true → (m.unsignalled = 0 ∨ m.unsignalled < p.threshold.toNat) →
          answers (stored m.unsignalled (
            if p.delay = 0 then none
            else if m.timer = none ∧ m.unsignalled ≠ 0 then some (s.time + p.delay.setWidth 64 * 100) else m.timer))))
    ∧ ∀ (id : BitVec 16) (p : RqInterruptParams) (pos : Nat) (s : State), s.takes pos →
      let refused := fun status =>
        Completes (.setRqInterrupt id p) s (handAdminDone (s.inHand pos id (.setRqInterrupt p)) status none s.taken)
      (8 ≤ p.queue.toNat → refused .badTarget)
      ∧ ∀ q : QueueId, p.queue.toNat = q.val →
          ((s.rq q).state = .absent → refused .state)
          ∧ ((s.rq q).state ≠ .absent → 1 < p.enable.toNat ∨ 8 ≤ p.vector.toNat ∨ p.threshold = 0 → refused .badParam)

/-! ## Invariants that every step keeps -/

/-- The report queues (R133, R135, R142, R155): every step keeps the entry of every queue and its moderation context sound. -/
def Obligations.StepKeepsQueues : Prop := ∀ s t : State, s.queuesSound → step s = .next t → t.queuesSound

/-- The lines and lanes (R82, R83, R84, R98, R107): every step keeps every line's drive and conditioner as its mode has them, and a line
in TRACK mode exactly the lane of one bound track. -/
def Obligations.StepKeepsLinesAndLanes : Prop :=
  ∀ s t : State, s.linesSound → s.lanesSound → step s = .next t → t.linesSound ∧ t.lanesSound

/-- The tracks (R1, R12, R13, R27, R45): every step keeps every timer in its own state, the prefetch list at the consecutive positions
before the fetch index, and retire, fetch and post in ring order with the retire index at the LOOP position of an active loop. -/
def Obligations.StepKeepsTracks : Prop :=
  ∀ s t : State, s.timersSound → s.listsSound → s.ordersSound → step s = .next t →
    t.timersSound ∧ t.listsSound ∧ t.ordersSound

/-- R122: while a trip unit is FIRED, no track in its mask is ARMED, DUE, INPUT-WAIT, EMPTY or PAUSED, and every step keeps it so. -/
def Obligations.StepKeepsTripHold : Prop := ∀ s t : State, s.tripsHold → step s = .next t → t.tripsHold

/-- The admin engine (R140, R167, R173, R175, R184): every step keeps a command in hand to READY, HALTED and a waiting ADMIN-DONE as
those rules state. -/
def Obligations.StepKeepsAdminEngine : Prop := ∀ s t : State, s.adminSound → step s = .next t → t.adminSound

/-- The state after power-on meets every invariant. -/
def Obligations.ResetMeetsInvariants : Prop :=
  State.reset.queuesSound ∧ State.reset.linesSound ∧ State.reset.lanesSound ∧ State.reset.timersSound ∧ State.reset.listsSound
    ∧ State.reset.ordersSound ∧ State.reset.tripsHold ∧ State.reset.adminSound

/-- R128, R188: a track leaves SAFE only through RESUME-TRACK, UNBIND-TRACK, a port reset, a soft reset or a power-on, and the device
leaves FAULTED only through those resets or a power-on. A soft reset is the CTRL_RESET row or the register write that spells it, and
the two commands may come as their rows or as their records. -/
def Obligations.WaysOutOfSafeAndFaulted : Prop :=
  ∀ (c : Instr) (s t : State), Completes c s t →
    let resets := c = .powerOn ∨ c = .portReset ∨ (∃ run, c = .ctrlReset run)
      ∨ ∃ value : BitVec 32, c = .registerWrite 0x04 .word value ∧ value.getLsbD 1 = true
    let frees := (∃ id track action choice, c = .resumeTrack id track action choice) ∨ (∃ id track, c = .unbindTrack id track)
      ∨ ∃ record, c = .adminReadCompletion record ∧ (record[0] = 0x0A ∨ record[0] = 0x06)
    (∀ k, (s.track k).state = .safe → (t.track k).state ≠ .safe → resets ∨ frees)
    ∧ (s.port.dev = .faulted → t.port.dev ≠ .faulted → resets)
end

