-- ==== Sys2Proof/Laws/State.lean ====
section
/-!
SUPPORT. One lemma per field per update of the state, so that no later proof unfolds a record update: what each named update leaves
as it was is `rfl`; what it writes is given by the `_self` and `_ne` lemmas and by the lemmas of the link.
-/

namespace Sys2Proof.Machine

/-! ## `State.setTrack` -/

@[simp] theorem State.setTrack_time (s : State) (t : TrackId) (c : Track) : (s.setTrack t c).time = s.time := rfl

@[simp] theorem State.setTrack_port (s : State) (t : TrackId) (c : Track) : (s.setTrack t c).port = s.port := rfl

@[simp] theorem State.setTrack_admin (s : State) (t : TrackId) (c : Track) : (s.setTrack t c).admin = s.admin := rfl

@[simp] theorem State.setTrack_lastGranted (s : State) (t : TrackId) (c : Track) : (s.setTrack t c).lastGranted = s.lastGranted := rfl

@[simp] theorem State.setTrack_lines (s : State) (t : TrackId) (c : Track) : (s.setTrack t c).lines = s.lines := rfl

@[simp] theorem State.setTrack_pins (s : State) (t : TrackId) (c : Track) : (s.setTrack t c).pins = s.pins := rfl

@[simp] theorem State.setTrack_sampler (s : State) (t : TrackId) (c : Track) : (s.setTrack t c).sampler = s.sampler := rfl

@[simp] theorem State.setTrack_trips (s : State) (t : TrackId) (c : Track) : (s.setTrack t c).trips = s.trips := rfl

@[simp] theorem State.setTrack_rqs (s : State) (t : TrackId) (c : Track) : (s.setTrack t c).rqs = s.rqs := rfl

@[simp] theorem State.setTrack_waiting (s : State) (t : TrackId) (c : Track) : (s.setTrack t c).waiting = s.waiting := rfl

@[simp] theorem State.setTrack_link (s : State) (t : TrackId) (c : Track) : (s.setTrack t c).link = s.link := rfl

@[simp] theorem State.setTrack_freeIndex (s : State) (t : TrackId) (c : Track) : (s.setTrack t c).freeIndex = s.freeIndex := rfl

@[simp] theorem State.setTrack_pending (s : State) (t : TrackId) (c : Track) : (s.setTrack t c).pending = s.pending := rfl

@[simp] theorem State.setTrack_line (s : State) (t : TrackId) (c : Track) (j : LineId) : (s.setTrack t c).line j = s.line j := rfl

@[simp] theorem State.setTrack_pin (s : State) (t : TrackId) (c : Track) (j : LineId) : (s.setTrack t c).pin j = s.pin j := rfl

@[simp] theorem State.setTrack_trip (s : State) (t : TrackId) (c : Track) (v : UnitId) : (s.setTrack t c).trip v = s.trip v := rfl

@[simp] theorem State.setTrack_rq (s : State) (t : TrackId) (c : Track) (p : QueueId) : (s.setTrack t c).rq p = s.rq p := rfl

/-! ## `State.setLine` -/

@[simp] theorem State.setLine_time (s : State) (l : LineId) (c : Line) : (s.setLine l c).time = s.time := rfl

@[simp] theorem State.setLine_port (s : State) (l : LineId) (c : Line) : (s.setLine l c).port = s.port := rfl

@[simp] theorem State.setLine_admin (s : State) (l : LineId) (c : Line) : (s.setLine l c).admin = s.admin := rfl

@[simp] theorem State.setLine_lastGranted (s : State) (l : LineId) (c : Line) : (s.setLine l c).lastGranted = s.lastGranted := rfl

@[simp] theorem State.setLine_tracks (s : State) (l : LineId) (c : Line) : (s.setLine l c).tracks = s.tracks := rfl

@[simp] theorem State.setLine_pins (s : State) (l : LineId) (c : Line) : (s.setLine l c).pins = s.pins := rfl

@[simp] theorem State.setLine_sampler (s : State) (l : LineId) (c : Line) : (s.setLine l c).sampler = s.sampler := rfl

@[simp] theorem State.setLine_trips (s : State) (l : LineId) (c : Line) : (s.setLine l c).trips = s.trips := rfl

@[simp] theorem State.setLine_rqs (s : State) (l : LineId) (c : Line) : (s.setLine l c).rqs = s.rqs := rfl

@[simp] theorem State.setLine_waiting (s : State) (l : LineId) (c : Line) : (s.setLine l c).waiting = s.waiting := rfl

@[simp] theorem State.setLine_link (s : State) (l : LineId) (c : Line) : (s.setLine l c).link = s.link := rfl

@[simp] theorem State.setLine_freeIndex (s : State) (l : LineId) (c : Line) : (s.setLine l c).freeIndex = s.freeIndex := rfl

@[simp] theorem State.setLine_pending (s : State) (l : LineId) (c : Line) : (s.setLine l c).pending = s.pending := rfl

@[simp] theorem State.setLine_track (s : State) (l : LineId) (c : Line) (k : TrackId) : (s.setLine l c).track k = s.track k := rfl

@[simp] theorem State.setLine_pin (s : State) (l : LineId) (c : Line) (j : LineId) : (s.setLine l c).pin j = s.pin j := rfl

@[simp] theorem State.setLine_trip (s : State) (l : LineId) (c : Line) (v : UnitId) : (s.setLine l c).trip v = s.trip v := rfl

@[simp] theorem State.setLine_rq (s : State) (l : LineId) (c : Line) (p : QueueId) : (s.setLine l c).rq p = s.rq p := rfl

/-! ## `State.mapLines` -/

@[simp] theorem State.mapLines_time (s : State) (f : LineId → Line → Line) : (s.mapLines f).time = s.time := by
  unfold State.mapLines; rfl

@[simp] theorem State.mapLines_port (s : State) (f : LineId → Line → Line) : (s.mapLines f).port = s.port := by
  unfold State.mapLines; rfl

@[simp] theorem State.mapLines_admin (s : State) (f : LineId → Line → Line) : (s.mapLines f).admin = s.admin := by
  unfold State.mapLines; rfl

@[simp] theorem State.mapLines_lastGranted (s : State) (f : LineId → Line → Line) : (s.mapLines f).lastGranted = s.lastGranted := by
  unfold State.mapLines; rfl

@[simp] theorem State.mapLines_tracks (s : State) (f : LineId → Line → Line) : (s.mapLines f).tracks = s.tracks := by
  unfold State.mapLines; rfl

@[simp] theorem State.mapLines_pins (s : State) (f : LineId → Line → Line) : (s.mapLines f).pins = s.pins := by
  unfold State.mapLines; rfl

@[simp] theorem State.mapLines_sampler (s : State) (f : LineId → Line → Line) : (s.mapLines f).sampler = s.sampler := by
  unfold State.mapLines; rfl

@[simp] theorem State.mapLines_trips (s : State) (f : LineId → Line → Line) : (s.mapLines f).trips = s.trips := by
  unfold State.mapLines; rfl

@[simp] theorem State.mapLines_rqs (s : State) (f : LineId → Line → Line) : (s.mapLines f).rqs = s.rqs := by
  unfold State.mapLines; rfl

@[simp] theorem State.mapLines_waiting (s : State) (f : LineId → Line → Line) : (s.mapLines f).waiting = s.waiting := by
  unfold State.mapLines; rfl

@[simp] theorem State.mapLines_link (s : State) (f : LineId → Line → Line) : (s.mapLines f).link = s.link := by
  unfold State.mapLines; rfl

@[simp] theorem State.mapLines_freeIndex (s : State) (f : LineId → Line → Line) : (s.mapLines f).freeIndex = s.freeIndex := by
  unfold State.mapLines; rfl

@[simp] theorem State.mapLines_pending (s : State) (f : LineId → Line → Line) : (s.mapLines f).pending = s.pending := by
  unfold State.mapLines; rfl

@[simp] theorem State.mapLines_track (s : State) (f : LineId → Line → Line) (k : TrackId) : (s.mapLines f).track k = s.track k := by
  simp only [State.track, State.mapLines_tracks]

@[simp] theorem State.mapLines_pin (s : State) (f : LineId → Line → Line) (j : LineId) : (s.mapLines f).pin j = s.pin j := by
  simp only [State.pin, State.mapLines_pins]

@[simp] theorem State.mapLines_trip (s : State) (f : LineId → Line → Line) (v : UnitId) : (s.mapLines f).trip v = s.trip v := by
  simp only [State.trip, State.mapLines_trips]

@[simp] theorem State.mapLines_rq (s : State) (f : LineId → Line → Line) (p : QueueId) : (s.mapLines f).rq p = s.rq p := by
  simp only [State.rq, State.mapLines_rqs]

/-! ## `State.setTrip` -/

@[simp] theorem State.setTrip_time (s : State) (u : UnitId) (c : Trip) : (s.setTrip u c).time = s.time := rfl

@[simp] theorem State.setTrip_port (s : State) (u : UnitId) (c : Trip) : (s.setTrip u c).port = s.port := rfl

@[simp] theorem State.setTrip_admin (s : State) (u : UnitId) (c : Trip) : (s.setTrip u c).admin = s.admin := rfl

@[simp] theorem State.setTrip_lastGranted (s : State) (u : UnitId) (c : Trip) : (s.setTrip u c).lastGranted = s.lastGranted := rfl

@[simp] theorem State.setTrip_tracks (s : State) (u : UnitId) (c : Trip) : (s.setTrip u c).tracks = s.tracks := rfl

@[simp] theorem State.setTrip_lines (s : State) (u : UnitId) (c : Trip) : (s.setTrip u c).lines = s.lines := rfl

@[simp] theorem State.setTrip_pins (s : State) (u : UnitId) (c : Trip) : (s.setTrip u c).pins = s.pins := rfl

@[simp] theorem State.setTrip_sampler (s : State) (u : UnitId) (c : Trip) : (s.setTrip u c).sampler = s.sampler := rfl

@[simp] theorem State.setTrip_rqs (s : State) (u : UnitId) (c : Trip) : (s.setTrip u c).rqs = s.rqs := rfl

@[simp] theorem State.setTrip_waiting (s : State) (u : UnitId) (c : Trip) : (s.setTrip u c).waiting = s.waiting := rfl

@[simp] theorem State.setTrip_link (s : State) (u : UnitId) (c : Trip) : (s.setTrip u c).link = s.link := rfl

@[simp] theorem State.setTrip_freeIndex (s : State) (u : UnitId) (c : Trip) : (s.setTrip u c).freeIndex = s.freeIndex := rfl

@[simp] theorem State.setTrip_pending (s : State) (u : UnitId) (c : Trip) : (s.setTrip u c).pending = s.pending := rfl

@[simp] theorem State.setTrip_track (s : State) (u : UnitId) (c : Trip) (k : TrackId) : (s.setTrip u c).track k = s.track k := rfl

@[simp] theorem State.setTrip_line (s : State) (u : UnitId) (c : Trip) (j : LineId) : (s.setTrip u c).line j = s.line j := rfl

@[simp] theorem State.setTrip_pin (s : State) (u : UnitId) (c : Trip) (j : LineId) : (s.setTrip u c).pin j = s.pin j := rfl

@[simp] theorem State.setTrip_rq (s : State) (u : UnitId) (c : Trip) (p : QueueId) : (s.setTrip u c).rq p = s.rq p := rfl

/-! ## `State.setRq` -/

@[simp] theorem State.setRq_time (s : State) (q : QueueId) (c : ReportQueue) : (s.setRq q c).time = s.time := rfl

@[simp] theorem State.setRq_port (s : State) (q : QueueId) (c : ReportQueue) : (s.setRq q c).port = s.port := rfl

@[simp] theorem State.setRq_admin (s : State) (q : QueueId) (c : ReportQueue) : (s.setRq q c).admin = s.admin := rfl

@[simp] theorem State.setRq_lastGranted (s : State) (q : QueueId) (c : ReportQueue) : (s.setRq q c).lastGranted = s.lastGranted := rfl

@[simp] theorem State.setRq_tracks (s : State) (q : QueueId) (c : ReportQueue) : (s.setRq q c).tracks = s.tracks := rfl

@[simp] theorem State.setRq_lines (s : State) (q : QueueId) (c : ReportQueue) : (s.setRq q c).lines = s.lines := rfl

@[simp] theorem State.setRq_pins (s : State) (q : QueueId) (c : ReportQueue) : (s.setRq q c).pins = s.pins := rfl

@[simp] theorem State.setRq_sampler (s : State) (q : QueueId) (c : ReportQueue) : (s.setRq q c).sampler = s.sampler := rfl

@[simp] theorem State.setRq_trips (s : State) (q : QueueId) (c : ReportQueue) : (s.setRq q c).trips = s.trips := rfl

@[simp] theorem State.setRq_waiting (s : State) (q : QueueId) (c : ReportQueue) : (s.setRq q c).waiting = s.waiting := rfl

@[simp] theorem State.setRq_link (s : State) (q : QueueId) (c : ReportQueue) : (s.setRq q c).link = s.link := rfl

@[simp] theorem State.setRq_freeIndex (s : State) (q : QueueId) (c : ReportQueue) : (s.setRq q c).freeIndex = s.freeIndex := rfl

@[simp] theorem State.setRq_pending (s : State) (q : QueueId) (c : ReportQueue) : (s.setRq q c).pending = s.pending := rfl

@[simp] theorem State.setRq_track (s : State) (q : QueueId) (c : ReportQueue) (k : TrackId) : (s.setRq q c).track k = s.track k := rfl

@[simp] theorem State.setRq_line (s : State) (q : QueueId) (c : ReportQueue) (j : LineId) : (s.setRq q c).line j = s.line j := rfl

@[simp] theorem State.setRq_pin (s : State) (q : QueueId) (c : ReportQueue) (j : LineId) : (s.setRq q c).pin j = s.pin j := rfl

@[simp] theorem State.setRq_trip (s : State) (q : QueueId) (c : ReportQueue) (v : UnitId) : (s.setRq q c).trip v = s.trip v := rfl

/-! ## `State.setDev` -/

@[simp] theorem State.setDev_time (s : State) (d : DevState) : (s.setDev d).time = s.time := rfl

@[simp] theorem State.setDev_admin (s : State) (d : DevState) : (s.setDev d).admin = s.admin := rfl

@[simp] theorem State.setDev_lastGranted (s : State) (d : DevState) : (s.setDev d).lastGranted = s.lastGranted := rfl

@[simp] theorem State.setDev_tracks (s : State) (d : DevState) : (s.setDev d).tracks = s.tracks := rfl

@[simp] theorem State.setDev_lines (s : State) (d : DevState) : (s.setDev d).lines = s.lines := rfl

@[simp] theorem State.setDev_pins (s : State) (d : DevState) : (s.setDev d).pins = s.pins := rfl

@[simp] theorem State.setDev_sampler (s : State) (d : DevState) : (s.setDev d).sampler = s.sampler := rfl

@[simp] theorem State.setDev_trips (s : State) (d : DevState) : (s.setDev d).trips = s.trips := rfl

@[simp] theorem State.setDev_rqs (s : State) (d : DevState) : (s.setDev d).rqs = s.rqs := rfl

@[simp] theorem State.setDev_waiting (s : State) (d : DevState) : (s.setDev d).waiting = s.waiting := rfl

@[simp] theorem State.setDev_link (s : State) (d : DevState) : (s.setDev d).link = s.link := rfl

@[simp] theorem State.setDev_freeIndex (s : State) (d : DevState) : (s.setDev d).freeIndex = s.freeIndex := rfl

@[simp] theorem State.setDev_pending (s : State) (d : DevState) : (s.setDev d).pending = s.pending := rfl

@[simp] theorem State.setDev_track (s : State) (d : DevState) (k : TrackId) : (s.setDev d).track k = s.track k := rfl

@[simp] theorem State.setDev_line (s : State) (d : DevState) (j : LineId) : (s.setDev d).line j = s.line j := rfl

@[simp] theorem State.setDev_pin (s : State) (d : DevState) (j : LineId) : (s.setDev d).pin j = s.pin j := rfl

@[simp] theorem State.setDev_trip (s : State) (d : DevState) (v : UnitId) : (s.setDev d).trip v = s.trip v := rfl

@[simp] theorem State.setDev_rq (s : State) (d : DevState) (p : QueueId) : (s.setDev d).rq p = s.rq p := rfl

/-! ## `State.setEngine` -/

@[simp] theorem State.setEngine_time (s : State) (e : Engine) : (s.setEngine e).time = s.time := rfl

@[simp] theorem State.setEngine_port (s : State) (e : Engine) : (s.setEngine e).port = s.port := rfl

@[simp] theorem State.setEngine_lastGranted (s : State) (e : Engine) : (s.setEngine e).lastGranted = s.lastGranted := rfl

@[simp] theorem State.setEngine_tracks (s : State) (e : Engine) : (s.setEngine e).tracks = s.tracks := rfl

@[simp] theorem State.setEngine_lines (s : State) (e : Engine) : (s.setEngine e).lines = s.lines := rfl

@[simp] theorem State.setEngine_pins (s : State) (e : Engine) : (s.setEngine e).pins = s.pins := rfl

@[simp] theorem State.setEngine_sampler (s : State) (e : Engine) : (s.setEngine e).sampler = s.sampler := rfl

@[simp] theorem State.setEngine_trips (s : State) (e : Engine) : (s.setEngine e).trips = s.trips := rfl

@[simp] theorem State.setEngine_rqs (s : State) (e : Engine) : (s.setEngine e).rqs = s.rqs := rfl

@[simp] theorem State.setEngine_waiting (s : State) (e : Engine) : (s.setEngine e).waiting = s.waiting := rfl

@[simp] theorem State.setEngine_link (s : State) (e : Engine) : (s.setEngine e).link = s.link := rfl

@[simp] theorem State.setEngine_freeIndex (s : State) (e : Engine) : (s.setEngine e).freeIndex = s.freeIndex := rfl

@[simp] theorem State.setEngine_pending (s : State) (e : Engine) : (s.setEngine e).pending = s.pending := rfl

@[simp] theorem State.setEngine_track (s : State) (e : Engine) (k : TrackId) : (s.setEngine e).track k = s.track k := rfl

@[simp] theorem State.setEngine_line (s : State) (e : Engine) (j : LineId) : (s.setEngine e).line j = s.line j := rfl

@[simp] theorem State.setEngine_pin (s : State) (e : Engine) (j : LineId) : (s.setEngine e).pin j = s.pin j := rfl

@[simp] theorem State.setEngine_trip (s : State) (e : Engine) (v : UnitId) : (s.setEngine e).trip v = s.trip v := rfl

@[simp] theorem State.setEngine_rq (s : State) (e : Engine) (p : QueueId) : (s.setEngine e).rq p = s.rq p := rfl

/-! ## `State.issueRead` -/

@[simp] theorem State.issueRead_time (s : State) (who : Requester) (a : Addr) (n : Nat) : (s.issueRead who a n).time = s.time := rfl

@[simp] theorem State.issueRead_port (s : State) (who : Requester) (a : Addr) (n : Nat) : (s.issueRead who a n).port = s.port := rfl

@[simp] theorem State.issueRead_admin (s : State) (who : Requester) (a : Addr) (n : Nat) : (s.issueRead who a n).admin = s.admin := rfl

@[simp] theorem State.issueRead_lastGranted (s : State) (who : Requester) (a : Addr) (n : Nat) : (s.issueRead who a n).lastGranted = s.lastGranted := rfl

@[simp] theorem State.issueRead_tracks (s : State) (who : Requester) (a : Addr) (n : Nat) : (s.issueRead who a n).tracks = s.tracks := rfl

@[simp] theorem State.issueRead_lines (s : State) (who : Requester) (a : Addr) (n : Nat) : (s.issueRead who a n).lines = s.lines := rfl

@[simp] theorem State.issueRead_pins (s : State) (who : Requester) (a : Addr) (n : Nat) : (s.issueRead who a n).pins = s.pins := rfl

@[simp] theorem State.issueRead_sampler (s : State) (who : Requester) (a : Addr) (n : Nat) : (s.issueRead who a n).sampler = s.sampler := rfl

@[simp] theorem State.issueRead_trips (s : State) (who : Requester) (a : Addr) (n : Nat) : (s.issueRead who a n).trips = s.trips := rfl

@[simp] theorem State.issueRead_rqs (s : State) (who : Requester) (a : Addr) (n : Nat) : (s.issueRead who a n).rqs = s.rqs := rfl

@[simp] theorem State.issueRead_waiting (s : State) (who : Requester) (a : Addr) (n : Nat) : (s.issueRead who a n).waiting = s.waiting := rfl

@[simp] theorem State.issueRead_freeIndex (s : State) (who : Requester) (a : Addr) (n : Nat) : (s.issueRead who a n).freeIndex = s.freeIndex := rfl

@[simp] theorem State.issueRead_pending (s : State) (who : Requester) (a : Addr) (n : Nat) : (s.issueRead who a n).pending = s.pending := rfl

@[simp] theorem State.issueRead_track (s : State) (who : Requester) (a : Addr) (n : Nat) (k : TrackId) : (s.issueRead who a n).track k = s.track k := rfl

@[simp] theorem State.issueRead_line (s : State) (who : Requester) (a : Addr) (n : Nat) (j : LineId) : (s.issueRead who a n).line j = s.line j := rfl

@[simp] theorem State.issueRead_pin (s : State) (who : Requester) (a : Addr) (n : Nat) (j : LineId) : (s.issueRead who a n).pin j = s.pin j := rfl

@[simp] theorem State.issueRead_trip (s : State) (who : Requester) (a : Addr) (n : Nat) (v : UnitId) : (s.issueRead who a n).trip v = s.trip v := rfl

@[simp] theorem State.issueRead_rq (s : State) (who : Requester) (a : Addr) (n : Nat) (p : QueueId) : (s.issueRead who a n).rq p = s.rq p := rfl

/-! ## `State.issueWrite` -/

@[simp] theorem State.issueWrite_time (s : State) (w : PendingWrite) : (s.issueWrite w).time = s.time := rfl

@[simp] theorem State.issueWrite_port (s : State) (w : PendingWrite) : (s.issueWrite w).port = s.port := rfl

@[simp] theorem State.issueWrite_admin (s : State) (w : PendingWrite) : (s.issueWrite w).admin = s.admin := rfl

@[simp] theorem State.issueWrite_lastGranted (s : State) (w : PendingWrite) : (s.issueWrite w).lastGranted = s.lastGranted := rfl

@[simp] theorem State.issueWrite_tracks (s : State) (w : PendingWrite) : (s.issueWrite w).tracks = s.tracks := rfl

@[simp] theorem State.issueWrite_lines (s : State) (w : PendingWrite) : (s.issueWrite w).lines = s.lines := rfl

@[simp] theorem State.issueWrite_pins (s : State) (w : PendingWrite) : (s.issueWrite w).pins = s.pins := rfl

@[simp] theorem State.issueWrite_sampler (s : State) (w : PendingWrite) : (s.issueWrite w).sampler = s.sampler := rfl

@[simp] theorem State.issueWrite_trips (s : State) (w : PendingWrite) : (s.issueWrite w).trips = s.trips := rfl

@[simp] theorem State.issueWrite_rqs (s : State) (w : PendingWrite) : (s.issueWrite w).rqs = s.rqs := rfl

@[simp] theorem State.issueWrite_waiting (s : State) (w : PendingWrite) : (s.issueWrite w).waiting = s.waiting := rfl

@[simp] theorem State.issueWrite_freeIndex (s : State) (w : PendingWrite) : (s.issueWrite w).freeIndex = s.freeIndex := rfl

@[simp] theorem State.issueWrite_pending (s : State) (w : PendingWrite) : (s.issueWrite w).pending = s.pending := rfl

@[simp] theorem State.issueWrite_track (s : State) (w : PendingWrite) (k : TrackId) : (s.issueWrite w).track k = s.track k := rfl

@[simp] theorem State.issueWrite_line (s : State) (w : PendingWrite) (j : LineId) : (s.issueWrite w).line j = s.line j := rfl

@[simp] theorem State.issueWrite_pin (s : State) (w : PendingWrite) (j : LineId) : (s.issueWrite w).pin j = s.pin j := rfl

@[simp] theorem State.issueWrite_trip (s : State) (w : PendingWrite) (v : UnitId) : (s.issueWrite w).trip v = s.trip v := rfl

@[simp] theorem State.issueWrite_rq (s : State) (w : PendingWrite) (p : QueueId) : (s.issueWrite w).rq p = s.rq p := rfl

/-! ## `State.dropRead` -/

@[simp] theorem State.dropRead_time (s : State) (who : Requester) : (s.dropRead who).time = s.time := rfl

@[simp] theorem State.dropRead_port (s : State) (who : Requester) : (s.dropRead who).port = s.port := rfl

@[simp] theorem State.dropRead_admin (s : State) (who : Requester) : (s.dropRead who).admin = s.admin := rfl

@[simp] theorem State.dropRead_lastGranted (s : State) (who : Requester) : (s.dropRead who).lastGranted = s.lastGranted := rfl

@[simp] theorem State.dropRead_tracks (s : State) (who : Requester) : (s.dropRead who).tracks = s.tracks := rfl

@[simp] theorem State.dropRead_lines (s : State) (who : Requester) : (s.dropRead who).lines = s.lines := rfl

@[simp] theorem State.dropRead_pins (s : State) (who : Requester) : (s.dropRead who).pins = s.pins := rfl

@[simp] theorem State.dropRead_sampler (s : State) (who : Requester) : (s.dropRead who).sampler = s.sampler := rfl

@[simp] theorem State.dropRead_trips (s : State) (who : Requester) : (s.dropRead who).trips = s.trips := rfl

@[simp] theorem State.dropRead_rqs (s : State) (who : Requester) : (s.dropRead who).rqs = s.rqs := rfl

@[simp] theorem State.dropRead_waiting (s : State) (who : Requester) : (s.dropRead who).waiting = s.waiting := rfl

@[simp] theorem State.dropRead_freeIndex (s : State) (who : Requester) : (s.dropRead who).freeIndex = s.freeIndex := rfl

@[simp] theorem State.dropRead_pending (s : State) (who : Requester) : (s.dropRead who).pending = s.pending := rfl

@[simp] theorem State.dropRead_track (s : State) (who : Requester) (k : TrackId) : (s.dropRead who).track k = s.track k := rfl

@[simp] theorem State.dropRead_line (s : State) (who : Requester) (j : LineId) : (s.dropRead who).line j = s.line j := rfl

@[simp] theorem State.dropRead_pin (s : State) (who : Requester) (j : LineId) : (s.dropRead who).pin j = s.pin j := rfl

@[simp] theorem State.dropRead_trip (s : State) (who : Requester) (v : UnitId) : (s.dropRead who).trip v = s.trip v := rfl

@[simp] theorem State.dropRead_rq (s : State) (who : Requester) (p : QueueId) : (s.dropRead who).rq p = s.rq p := rfl

/-! ## `State.dropWrite` -/

@[simp] theorem State.dropWrite_time (s : State) (p : WritePurpose → Bool) : (s.dropWrite p).time = s.time := rfl

@[simp] theorem State.dropWrite_port (s : State) (p : WritePurpose → Bool) : (s.dropWrite p).port = s.port := rfl

@[simp] theorem State.dropWrite_admin (s : State) (p : WritePurpose → Bool) : (s.dropWrite p).admin = s.admin := rfl

@[simp] theorem State.dropWrite_lastGranted (s : State) (p : WritePurpose → Bool) : (s.dropWrite p).lastGranted = s.lastGranted := rfl

@[simp] theorem State.dropWrite_tracks (s : State) (p : WritePurpose → Bool) : (s.dropWrite p).tracks = s.tracks := rfl

@[simp] theorem State.dropWrite_lines (s : State) (p : WritePurpose → Bool) : (s.dropWrite p).lines = s.lines := rfl

@[simp] theorem State.dropWrite_pins (s : State) (p : WritePurpose → Bool) : (s.dropWrite p).pins = s.pins := rfl

@[simp] theorem State.dropWrite_sampler (s : State) (p : WritePurpose → Bool) : (s.dropWrite p).sampler = s.sampler := rfl

@[simp] theorem State.dropWrite_trips (s : State) (p : WritePurpose → Bool) : (s.dropWrite p).trips = s.trips := rfl

@[simp] theorem State.dropWrite_rqs (s : State) (p : WritePurpose → Bool) : (s.dropWrite p).rqs = s.rqs := rfl

@[simp] theorem State.dropWrite_waiting (s : State) (p : WritePurpose → Bool) : (s.dropWrite p).waiting = s.waiting := rfl

@[simp] theorem State.dropWrite_freeIndex (s : State) (p : WritePurpose → Bool) : (s.dropWrite p).freeIndex = s.freeIndex := rfl

@[simp] theorem State.dropWrite_pending (s : State) (p : WritePurpose → Bool) : (s.dropWrite p).pending = s.pending := rfl

@[simp] theorem State.dropWrite_track (s : State) (p : WritePurpose → Bool) (k : TrackId) : (s.dropWrite p).track k = s.track k := rfl

@[simp] theorem State.dropWrite_line (s : State) (p : WritePurpose → Bool) (j : LineId) : (s.dropWrite p).line j = s.line j := rfl

@[simp] theorem State.dropWrite_pin (s : State) (p : WritePurpose → Bool) (j : LineId) : (s.dropWrite p).pin j = s.pin j := rfl

@[simp] theorem State.dropWrite_trip (s : State) (p : WritePurpose → Bool) (v : UnitId) : (s.dropWrite p).trip v = s.trip v := rfl

@[simp] theorem State.dropWrite_rq (s : State) (p : WritePurpose → Bool) (p' : QueueId) : (s.dropWrite p).rq p' = s.rq p' := rfl

/-! ## `State.modTrack` -/

@[simp] theorem State.modTrack_time (s : State) (t : TrackId) (f : Track → Track) : (s.modTrack t f).time = s.time := rfl

@[simp] theorem State.modTrack_port (s : State) (t : TrackId) (f : Track → Track) : (s.modTrack t f).port = s.port := rfl

@[simp] theorem State.modTrack_admin (s : State) (t : TrackId) (f : Track → Track) : (s.modTrack t f).admin = s.admin := rfl

@[simp] theorem State.modTrack_lastGranted (s : State) (t : TrackId) (f : Track → Track) : (s.modTrack t f).lastGranted = s.lastGranted := rfl

@[simp] theorem State.modTrack_lines (s : State) (t : TrackId) (f : Track → Track) : (s.modTrack t f).lines = s.lines := rfl

@[simp] theorem State.modTrack_pins (s : State) (t : TrackId) (f : Track → Track) : (s.modTrack t f).pins = s.pins := rfl

@[simp] theorem State.modTrack_sampler (s : State) (t : TrackId) (f : Track → Track) : (s.modTrack t f).sampler = s.sampler := rfl

@[simp] theorem State.modTrack_trips (s : State) (t : TrackId) (f : Track → Track) : (s.modTrack t f).trips = s.trips := rfl

@[simp] theorem State.modTrack_rqs (s : State) (t : TrackId) (f : Track → Track) : (s.modTrack t f).rqs = s.rqs := rfl

@[simp] theorem State.modTrack_waiting (s : State) (t : TrackId) (f : Track → Track) : (s.modTrack t f).waiting = s.waiting := rfl

@[simp] theorem State.modTrack_link (s : State) (t : TrackId) (f : Track → Track) : (s.modTrack t f).link = s.link := rfl

@[simp] theorem State.modTrack_freeIndex (s : State) (t : TrackId) (f : Track → Track) : (s.modTrack t f).freeIndex = s.freeIndex := rfl

@[simp] theorem State.modTrack_pending (s : State) (t : TrackId) (f : Track → Track) : (s.modTrack t f).pending = s.pending := rfl

@[simp] theorem State.modTrack_line (s : State) (t : TrackId) (f : Track → Track) (j : LineId) : (s.modTrack t f).line j = s.line j := rfl

@[simp] theorem State.modTrack_pin (s : State) (t : TrackId) (f : Track → Track) (j : LineId) : (s.modTrack t f).pin j = s.pin j := rfl

@[simp] theorem State.modTrack_trip (s : State) (t : TrackId) (f : Track → Track) (v : UnitId) : (s.modTrack t f).trip v = s.trip v := rfl

@[simp] theorem State.modTrack_rq (s : State) (t : TrackId) (f : Track → Track) (p : QueueId) : (s.modTrack t f).rq p = s.rq p := rfl

/-! ## What the updates write -/

@[simp] theorem State.track_setTrack_self (s : State) (t : TrackId) (c : Track) : (s.setTrack t c).track t = c := by
  simp [State.track, State.setTrack]

theorem State.track_setTrack_ne (s : State) {t k : TrackId} (c : Track) (h : k ≠ t) : (s.setTrack t c).track k = s.track k := by
  have : (t : Nat) ≠ k := fun e => h (Fin.ext e.symm)
  simp [State.track, State.setTrack, this]

theorem State.track_setTrack (s : State) (t k : TrackId) (c : Track) :
    (s.setTrack t c).track k = if k = t then c else s.track k := by
  split
  · next h => subst h; simp
  · next h => exact s.track_setTrack_ne c h

@[simp] theorem State.line_setLine_self (s : State) (l : LineId) (c : Line) : (s.setLine l c).line l = c := by
  simp [State.line, State.setLine]

theorem State.line_setLine_ne (s : State) {l j : LineId} (c : Line) (h : j ≠ l) : (s.setLine l c).line j = s.line j := by
  have : (l : Nat) ≠ j := fun e => h (Fin.ext e.symm)
  simp [State.line, State.setLine, this]

theorem State.line_setLine (s : State) (l j : LineId) (c : Line) :
    (s.setLine l c).line j = if j = l then c else s.line j := by
  split
  · next h => subst h; simp
  · next h => exact s.line_setLine_ne c h

@[simp] theorem State.line_mapLines (s : State) (f : LineId → Line → Line) (l : LineId) :
    (s.mapLines f).line l = f l (s.line l) := by
  simp [State.line, State.mapLines]

@[simp] theorem State.trip_setTrip_self (s : State) (u : UnitId) (c : Trip) : (s.setTrip u c).trip u = c := by
  simp [State.trip, State.setTrip]

theorem State.trip_setTrip_ne (s : State) {u v : UnitId} (c : Trip) (h : v ≠ u) : (s.setTrip u c).trip v = s.trip v := by
  have : (u : Nat) ≠ v := fun e => h (Fin.ext e.symm)
  simp [State.trip, State.setTrip, this]

theorem State.trip_setTrip (s : State) (u v : UnitId) (c : Trip) :
    (s.setTrip u c).trip v = if v = u then c else s.trip v := by
  split
  · next h => subst h; simp
  · next h => exact s.trip_setTrip_ne c h

@[simp] theorem State.rq_setRq_self (s : State) (q : QueueId) (c : ReportQueue) : (s.setRq q c).rq q = c := by
  simp [State.rq, State.setRq]

theorem State.rq_setRq_ne (s : State) {q p : QueueId} (c : ReportQueue) (h : p ≠ q) : (s.setRq q c).rq p = s.rq p := by
  have : (q : Nat) ≠ p := fun e => h (Fin.ext e.symm)
  simp [State.rq, State.setRq, this]

theorem State.rq_setRq (s : State) (q p : QueueId) (c : ReportQueue) :
    (s.setRq q c).rq p = if p = q then c else s.rq p := by
  split
  · next h => subst h; simp
  · next h => exact s.rq_setRq_ne c h

@[simp] theorem State.setTrack_setTrack (s : State) (t : TrackId) (c d : Track) :
    (s.setTrack t c).setTrack t d = s.setTrack t d := by
  simp [State.setTrack]

@[simp] theorem State.setLine_setLine (s : State) (l : LineId) (c d : Line) : (s.setLine l c).setLine l d = s.setLine l d := by
  simp [State.setLine]

@[simp] theorem State.setTrip_setTrip (s : State) (u : UnitId) (c d : Trip) : (s.setTrip u c).setTrip u d = s.setTrip u d := by
  simp [State.setTrip]

@[simp] theorem State.setRq_setRq (s : State) (q : QueueId) (c d : ReportQueue) : (s.setRq q c).setRq q d = s.setRq q d := by
  simp [State.setRq]

@[simp] theorem State.setTrack_track (s : State) (t : TrackId) : s.setTrack t (s.track t) = s := by
  simp [State.setTrack, State.track]

@[simp] theorem State.setRq_rq (s : State) (q : QueueId) : s.setRq q (s.rq q) = s := by
  simp [State.setRq, State.rq]

/-- A change of a track context is the replacement of it by the changed one. -/
theorem State.modTrack_eq (s : State) (t : TrackId) (f : Track → Track) : s.modTrack t f = s.setTrack t (f (s.track t)) := rfl

@[simp] theorem State.track_modTrack_self (s : State) (t : TrackId) (f : Track → Track) :
    (s.modTrack t f).track t = f (s.track t) := by
  simp [State.modTrack_eq]

theorem State.track_modTrack_ne (s : State) {t k : TrackId} (f : Track → Track) (h : k ≠ t) :
    (s.modTrack t f).track k = s.track k := s.track_setTrack_ne _ h

theorem State.track_modTrack (s : State) (t k : TrackId) (f : Track → Track) :
    (s.modTrack t f).track k = if k = t then f (s.track t) else s.track k := s.track_setTrack t k _

@[simp] theorem State.modTrack_modTrack (s : State) (t : TrackId) (f g : Track → Track) :
    (s.modTrack t f).modTrack t g = s.modTrack t fun c => g (f c) := by
  simp [State.modTrack_eq]

/-! ## The link -/

@[simp] theorem State.issueRead_reads (s : State) (who : Requester) (a : Addr) (n : Nat) :
    (s.issueRead who a n).link.reads = s.link.reads ++ [{ who := who, issued := s.time }] := rfl

@[simp] theorem State.issueRead_writes (s : State) (who : Requester) (a : Addr) (n : Nat) :
    (s.issueRead who a n).link.writes = s.link.writes := rfl

@[simp] theorem State.issueRead_out (s : State) (who : Requester) (a : Addr) (n : Nat) :
    (s.issueRead who a n).link.out = s.link.out ++ [.read a n] := rfl

@[simp] theorem State.issueWrite_reads (s : State) (w : PendingWrite) : (s.issueWrite w).link.reads = s.link.reads := rfl

@[simp] theorem State.issueWrite_writes (s : State) (w : PendingWrite) :
    (s.issueWrite w).link.writes = s.link.writes ++ [w] := rfl

@[simp] theorem State.issueWrite_out (s : State) (w : PendingWrite) :
    (s.issueWrite w).link.out = s.link.out ++ [.write w.addr w.data] := rfl

@[simp] theorem State.issueWrite_masked (s : State) (w : PendingWrite) : (s.issueWrite w).link.masked = s.link.masked := rfl

@[simp] theorem State.issueWrite_marks (s : State) (w : PendingWrite) : (s.issueWrite w).link.marks = s.link.marks := rfl

@[simp] theorem State.issueWrite_msiAllowed (s : State) (w : PendingWrite) :
    (s.issueWrite w).link.msiAllowed = s.link.msiAllowed := rfl

@[simp] theorem State.dropRead_reads (s : State) (who : Requester) :
    (s.dropRead who).link.reads = s.link.reads.eraseP fun r => r.who == who := rfl

@[simp] theorem State.dropRead_writes (s : State) (who : Requester) : (s.dropRead who).link.writes = s.link.writes := rfl

@[simp] theorem State.dropRead_out (s : State) (who : Requester) : (s.dropRead who).link.out = s.link.out := rfl

@[simp] theorem State.dropWrite_writes (s : State) (p : WritePurpose → Bool) :
    (s.dropWrite p).link.writes = s.link.writes.eraseP fun w => p w.purpose := rfl

@[simp] theorem State.dropWrite_reads (s : State) (p : WritePurpose → Bool) : (s.dropWrite p).link.reads = s.link.reads := rfl

@[simp] theorem State.dropWrite_out (s : State) (p : WritePurpose → Bool) : (s.dropWrite p).link.out = s.link.out := rfl

@[simp] theorem State.issueRead_masked (s : State) (who : Requester) (a : Addr) (n : Nat) : (s.issueRead who a n).link.masked = s.link.masked := rfl

@[simp] theorem State.issueRead_marks (s : State) (who : Requester) (a : Addr) (n : Nat) : (s.issueRead who a n).link.marks = s.link.marks := rfl

@[simp] theorem State.issueRead_msiAllowed (s : State) (who : Requester) (a : Addr) (n : Nat) : (s.issueRead who a n).link.msiAllowed = s.link.msiAllowed := rfl

@[simp] theorem State.dropRead_masked (s : State) (who : Requester) : (s.dropRead who).link.masked = s.link.masked := rfl

@[simp] theorem State.dropRead_marks (s : State) (who : Requester) : (s.dropRead who).link.marks = s.link.marks := rfl

@[simp] theorem State.dropRead_msiAllowed (s : State) (who : Requester) : (s.dropRead who).link.msiAllowed = s.link.msiAllowed := rfl

@[simp] theorem State.dropWrite_masked (s : State) (p : WritePurpose → Bool) : (s.dropWrite p).link.masked = s.link.masked := rfl

@[simp] theorem State.dropWrite_marks (s : State) (p : WritePurpose → Bool) : (s.dropWrite p).link.marks = s.link.marks := rfl

@[simp] theorem State.dropWrite_msiAllowed (s : State) (p : WritePurpose → Bool) : (s.dropWrite p).link.msiAllowed = s.link.msiAllowed := rfl

@[simp] theorem State.setDev_dev (s : State) (d : DevState) : (s.setDev d).port.dev = d := rfl

@[simp] theorem State.setDev_run (s : State) (d : DevState) : (s.setDev d).port.run = s.port.run := rfl

@[simp] theorem State.setEngine_engine (s : State) (e : Engine) : (s.setEngine e).admin.engine = e := rfl

@[simp] theorem State.setEngine_taken (s : State) (e : Engine) : (s.setEngine e).admin.taken = s.admin.taken := rfl

@[simp] theorem State.setEngine_size (s : State) (e : Engine) : (s.setEngine e).admin.size = s.admin.size := rfl

end Sys2Proof.Machine
end

