-- ==== Sys2Proof/Laws/Reports.lean ====
section
/-!
SUPPORT. What handing a report can do, said once: the three decisions of R137, what each leaves, and that a report touches one table
entry and the link's writes alone.
-/

namespace Sys2Proof.Machine

/-! ## Posting -/

@[simp] theorem rq_postReport_self (q : QueueId) (r : Report) (s : State) : (postReport q r s).rq q = claimSlot (s.rq q) := by
  simp [postReport]

theorem rq_postReport_ne {q p : QueueId} (r : Report) (s : State) (h : p ≠ q) : (postReport q r s).rq p = s.rq p := by
  simp [postReport, State.rq_setRq_ne _ _ h]

/-- A posted report claims one slot and issues one write; the rest of the state is as it was. -/
theorem postReport_eq (q : QueueId) (r : Report) (s : State) :
    postReport q r s =
      { s with
        rqs := s.rqs.set q (claimSlot (s.rq q))
        link := { s.link with
          writes := s.link.writes ++ [{ addr := slotAddr (s.rq q), data := encodeEntry (s.rq q).pass (s.rq q).seq r,
                                        purpose := .entry q (s.rq q).write (s.rq q).seq }]
          out := s.link.out ++ [.write (slotAddr (s.rq q)) (encodeEntry (s.rq q).pass (s.rq q).seq r)] } } := rfl

/-! ## The decision -/

/-- What the report writer decides, by the conditions of R137. -/
theorem decision_eq (s : State) (q : QueueId) :
    s.decision q =
      if s.port.dev = .faulted ∨ (s.rq q).state = .absent ∨ (s.rq q).closing = true then .dropped
      else if (s.rq q).state = .active ∧ reserve q < freeSlots (s.rq q) ∧ (s.rq q).counts = OverflowCounts.zero then .posted
      else .counted := by
  unfold State.decision overflowPending
  by_cases hf : s.port.dev = .faulted
  · simp [hf]
  · by_cases ha : (s.rq q).state = .absent ∨ (s.rq q).closing = true
    · simp [hf, ha]
    · cases hs : (s.rq q).state <;> simp_all

theorem handReport_posted {q : QueueId} {s : State} (r : Report) (h : s.decision q = .posted) :
    handReport q r s = postReport q r s := by
  simp [handReport, h]

theorem handReport_counted {q : QueueId} {s : State} (r : Report) (h : s.decision q = .counted) :
    handReport q r s = s.setRq q { s.rq q with counts := (s.rq q).counts.lose r.body } := by
  simp [handReport, h]

theorem handReport_dropped {q : QueueId} {s : State} (r : Report) (h : s.decision q = .dropped) : handReport q r s = s := by
  simp [handReport, h]

/-- A report handed changes at most the table entry of its queue and the writes in flight with what was handed to the link. -/
theorem handReport_eq_with (q : QueueId) (r : Report) (s : State) :
    ∃ c writes out,
      handReport q r s = { s with rqs := s.rqs.set q c, link := { s.link with writes := writes, out := out } } := by
  unfold handReport
  split
  · exact ⟨_, _, _, postReport_eq q r s⟩
  · exact ⟨_, _, _, rfl⟩
  · refine ⟨s.rq q, s.link.writes, s.link.out, ?_⟩
    conv => lhs; rw [← s.setRq_rq q]
    rfl

section Frame

variable (q : QueueId) (r : Report) (s : State)

@[simp] theorem handReport_time : (handReport q r s).time = s.time := by
  obtain ⟨_, _, _, h⟩ := handReport_eq_with q r s; rw [h]

@[simp] theorem handReport_port : (handReport q r s).port = s.port := by
  obtain ⟨_, _, _, h⟩ := handReport_eq_with q r s; rw [h]

@[simp] theorem handReport_admin : (handReport q r s).admin = s.admin := by
  obtain ⟨_, _, _, h⟩ := handReport_eq_with q r s; rw [h]

@[simp] theorem handReport_lastGranted : (handReport q r s).lastGranted = s.lastGranted := by
  obtain ⟨_, _, _, h⟩ := handReport_eq_with q r s; rw [h]

@[simp] theorem handReport_tracks : (handReport q r s).tracks = s.tracks := by
  obtain ⟨_, _, _, h⟩ := handReport_eq_with q r s; rw [h]

@[simp] theorem handReport_lines : (handReport q r s).lines = s.lines := by
  obtain ⟨_, _, _, h⟩ := handReport_eq_with q r s; rw [h]

@[simp] theorem handReport_pins : (handReport q r s).pins = s.pins := by
  obtain ⟨_, _, _, h⟩ := handReport_eq_with q r s; rw [h]

@[simp] theorem handReport_sampler : (handReport q r s).sampler = s.sampler := by
  obtain ⟨_, _, _, h⟩ := handReport_eq_with q r s; rw [h]

@[simp] theorem handReport_trips : (handReport q r s).trips = s.trips := by
  obtain ⟨_, _, _, h⟩ := handReport_eq_with q r s; rw [h]

@[simp] theorem handReport_waiting : (handReport q r s).waiting = s.waiting := by
  obtain ⟨_, _, _, h⟩ := handReport_eq_with q r s; rw [h]

@[simp] theorem handReport_freeIndex : (handReport q r s).freeIndex = s.freeIndex := by
  obtain ⟨_, _, _, h⟩ := handReport_eq_with q r s; rw [h]

@[simp] theorem handReport_pending : (handReport q r s).pending = s.pending := by
  obtain ⟨_, _, _, h⟩ := handReport_eq_with q r s; rw [h]

@[simp] theorem handReport_reads : (handReport q r s).link.reads = s.link.reads := by
  obtain ⟨_, _, _, h⟩ := handReport_eq_with q r s; rw [h]

@[simp] theorem handReport_masked : (handReport q r s).link.masked = s.link.masked := by
  obtain ⟨_, _, _, h⟩ := handReport_eq_with q r s; rw [h]

@[simp] theorem handReport_marks : (handReport q r s).link.marks = s.link.marks := by
  obtain ⟨_, _, _, h⟩ := handReport_eq_with q r s; rw [h]

@[simp] theorem handReport_msiAllowed : (handReport q r s).link.msiAllowed = s.link.msiAllowed := by
  obtain ⟨_, _, _, h⟩ := handReport_eq_with q r s; rw [h]

@[simp] theorem handReport_track (k : TrackId) : (handReport q r s).track k = s.track k := by simp [State.track]

@[simp] theorem handReport_line (l : LineId) : (handReport q r s).line l = s.line l := by simp [State.line]

@[simp] theorem handReport_pin (l : LineId) : (handReport q r s).pin l = s.pin l := by simp [State.pin]

@[simp] theorem handReport_trip (u : UnitId) : (handReport q r s).trip u = s.trip u := by simp [State.trip]

theorem handReport_rq_ne {p : QueueId} (h : p ≠ q) : (handReport q r s).rq p = s.rq p := by
  obtain ⟨_, _, _, e⟩ := handReport_eq_with q r s
  have : (q : Nat) ≠ p := fun e => h (Fin.ext e.symm)
  rw [e]
  simp [State.rq, this]

/-- A report changes no table entry's state, place, release index, size or moderation. -/
theorem handReport_rq_keeps (p : QueueId) :
    ((handReport q r s).rq p).state = (s.rq p).state ∧ ((handReport q r s).rq p).closing = (s.rq p).closing
      ∧ ((handReport q r s).rq p).base = (s.rq p).base ∧ ((handReport q r s).rq p).size = (s.rq p).size
      ∧ ((handReport q r s).rq p).release = (s.rq p).release ∧ ((handReport q r s).rq p).irq = (s.rq p).irq := by
  by_cases h : p = q
  · subst h
    unfold handReport
    split <;> simp [claimSlot]
  · simp [handReport_rq_ne q r s h]

end Frame

/-! ## A report and a change elsewhere commute -/

theorem decision_setTrack (s : State) (q : QueueId) (t : TrackId) (c : Track) : (s.setTrack t c).decision q = s.decision q := rfl

theorem decision_setLine (s : State) (q : QueueId) (l : LineId) (c : Line) : (s.setLine l c).decision q = s.decision q := rfl

theorem handReport_setTrack (q : QueueId) (r : Report) (s : State) (t : TrackId) (c : Track) :
    handReport q r (s.setTrack t c) = (handReport q r s).setTrack t c := by
  cases h : s.decision q
  · rw [handReport_posted r h, handReport_posted r (by rw [decision_setTrack, h])]; rfl
  · rw [handReport_counted r h, handReport_counted r (by rw [decision_setTrack, h])]; rfl
  · rw [handReport_dropped r h, handReport_dropped r (by rw [decision_setTrack, h])]

theorem handReport_setLine (q : QueueId) (r : Report) (s : State) (l : LineId) (c : Line) :
    handReport q r (s.setLine l c) = (handReport q r s).setLine l c := by
  cases h : s.decision q
  · rw [handReport_posted r h, handReport_posted r (by rw [decision_setLine, h])]; rfl
  · rw [handReport_counted r h, handReport_counted r (by rw [decision_setLine, h])]; rfl
  · rw [handReport_dropped r h, handReport_dropped r (by rw [decision_setLine, h])]

end Sys2Proof.Machine
end

