-- ==== Sys2Proof/Laws/Chain.lean ====
section
/-!
SUPPORT. What an event of a track is made of: reports, replaced track contexts, claims on lines and retire-word writes, and of an
acceptance besides: line cells, trip contexts and the count of free choices. A property that these keep is kept by every track
operation and every acceptance, however long the chain of records is.
-/

namespace Sys2Proof.Machine

/-- What BIND-TRACK fixed of a track, and its post index, which the host alone moves. -/
def Track.binding (c : Track) : List LineId × QueueId × Addr × Nat × Nat × Addr × LatePolicy × BitVec 16 × BitVec 16 :=
  (c.lanes, c.rq, c.sqBase, c.sqSize, c.post, c.retireAddr, c.latePolicy, c.tolerance, c.holdLimit)

/-- The second context has the binding of the first, and is bound when the first is. -/
def SameBinding (c d : Track) : Prop := d.binding = c.binding ∧ (c.state ≠ .unbound → d.state ≠ .unbound)

theorem sameBinding_keep {c d : Track} (hb : d.binding = c.binding) (hs : d.state = c.state) : SameBinding c d :=
  ⟨hb, fun h => hs ▸ h⟩

theorem sameBinding_to {c d : Track} {st : TrackState} (hb : d.binding = c.binding) (hs : d.state = st) (h : st ≠ .unbound) :
    SameBinding c d :=
  ⟨hb, fun _ => hs ▸ h⟩

/-- A property of the state that the parts of an event of this track keep: a report, another context with the same binding, a claim on
the drives of its own lanes, and a write of its retire word. -/
structure TrackClosed (t : TrackId) (P : State → Prop) : Prop where
  report : ∀ q r s, P s → P (handReport q r s)
  context : ∀ c s, SameBinding (s.track t) c → P s → P (s.setTrack t c)
  claim : ∀ f s, (∀ l c, c.ownedBy t = false → f l c = c) → (∀ l c, f l c = { c with drive := (f l c).drive }) → P s →
    P (s.mapLines f)
  retireWord : ∀ addr data s, P s → P (s.issueWrite { addr := addr, data := data, purpose := .retireWord t })

/-- A property of the state that the parts of an acceptance keep: those of every track's events, another line cell, another trip
context, and one more free choice. -/
structure InputClosed (P : State → Prop) : Prop where
  onTrack : ∀ t, TrackClosed t P
  cell : ∀ l c s, P s → P (s.setLine l c)
  unit : ∀ u c s, P s → P (s.setTrip u c)
  choice : ∀ n s, P s → P { s with freeIndex := n }

/-- The state a flow carries. -/
def Flow.state : Flow → State
  | .rest s => s
  | .goOn s => s

@[simp] theorem Flow.state_rest (s : State) : (Flow.rest s).state = s := rfl

@[simp] theorem Flow.state_goOn (s : State) : (Flow.goOn s).state = s := rfl

/-- A left fold of steps that keep a property keeps it. -/
theorem foldl_keeps {α : Type} {P : State → Prop} (f : State → α → State) (hf : ∀ s a, P s → P (f s a)) (xs : List α) {s : State}
    (h : P s) : P (xs.foldl f s) := by
  induction xs generalizing s with
  | nil => exact h
  | cons x xs ih => exact ih (hf s x h)

theorem Track.countOutcome_binding (c : Track) (o : StepOutcome) : SameBinding c (c.countOutcome o) := by
  cases o <;> exact sameBinding_keep rfl rfl

/-- The claim of the safe-mode results names a track's own lanes alone. -/
theorem safeClaim_other (t : TrackId) (c : Line) (h : c.ownedBy t = false) :
    (if c.ownedBy t then { c with drive := safeResult c.safeMode c.drive } else c) = c := by
  simp [h]

theorem safeClaim_drive (t : TrackId) (c : Line) :
    (if c.ownedBy t then { c with drive := safeResult c.safeMode c.drive } else c)
      = { c with drive := (if c.ownedBy t then { c with drive := safeResult c.safeMode c.drive } else c).drive } := by
  split <;> rfl

/-- The claim of a LEVEL changes the drive of a line cell and nothing else of it. -/
theorem levelClaim_drive (t : TrackId) (mask value : BitVec 16) (c : Line) :
    (match c.owner with
      | some o =>
        if o.track = t ∧ mask.getLsbD o.lane.val then { c with drive := driveOf (levelOf (value.getLsbD o.lane.val)) } else c
      | none => c)
      = { c with drive := (match c.owner with
          | some o =>
            if o.track = t ∧ mask.getLsbD o.lane.val then { c with drive := driveOf (levelOf (value.getLsbD o.lane.val)) } else c
          | none => c).drive } := by
  obtain ⟨mode, owner⟩ := c
  cases owner with
  | none => rfl
  | some o => dsimp only; split <;> rfl

namespace TrackClosed

variable {t : TrackId} {P : State → Prop} (C : TrackClosed t P)

include C

theorem modTrack {f : Track → Track} {s : State} (hf : SameBinding (s.track t) (f (s.track t))) (h : P s) :
    P (s.modTrack t f) := C.context _ s hf h

theorem setRef (time : Time) {s : State} (h : P s) : P (setRef t time s) := C.modTrack (sameBinding_keep rfl rfl) h

theorem idle {s : State} (h : P s) : P (s.modTrack t Track.idleTimers) := C.modTrack (sameBinding_keep rfl rfl) h

theorem claimSafe {s : State} (h : P s) : P (claimSafe t s) :=
  C.claim _ s (fun _ c hc => safeClaim_other t c hc) (fun _ c => safeClaim_drive t c) h

theorem claimLevel (mask value : BitVec 16) {s : State} (h : P s) : P (claimLevel t mask value s) := by
  refine C.claim _ s (fun l c hc => ?_) (fun l c => ?_) h
  · unfold Line.ownedBy at hc
    cases ho : c.owner with
    | none => rfl
    | some o =>
      rw [ho] at hc
      simp only [beq_eq_false_iff_ne] at hc
      simp [hc]
  · exact levelClaim_drive t mask value c

theorem writeRetireWord {s : State} (h : P s) : P (writeRetireWord t s) :=
  C.retireWord _ _ _ (C.context _ s (sameBinding_keep rfl rfl) h)

theorem setRetire (r : Nat) {s : State} (h : P s) : P (setRetire t r s) := by
  unfold Machine.setRetire
  dsimp only
  split
  · exact h
  · split
    · exact C.writeRetireWord (C.context _ s (sameBinding_keep rfl rfl) h)
    · exact C.context _ s (sameBinding_keep rfl rfl) h

theorem trackEvent (e : TrackEventKind) (cause : Option SafeCause) (tag : BitVec 16) (pos n : Nat) {s : State} (h : P s) :
    P (trackEvent t e cause tag pos n s) := C.report _ _ s h

theorem stepDone (step : CurrentStep) (o : StepOutcome) {s : State} (h : P s) : P (stepDone t step o s) := by
  unfold Machine.stepDone
  dsimp only
  split
  · exact C.modTrack (sameBinding_keep rfl rfl) (C.report _ _ s h)
  · exact h

theorem enterSafe (cause : SafeCause) (origin : SafeFrom) {s : State} (h : P s) : P (enterSafe t cause origin s) :=
  C.trackEvent _ _ _ _ _ (C.claimSafe (C.modTrack (sameBinding_to (st := .safe) rfl rfl (by decide)) h))

theorem forceSafe (cause : SafeCause) {s : State} (h : P s) : P (forceSafe t cause s) := by
  unfold Machine.forceSafe
  split
  · exact C.enterSafe cause _ h
  · exact h

theorem abandon {s : State} (h : P s) : P (s.modTrack t Track.abandon) :=
  C.modTrack (sameBinding_to (st := .stopped) rfl rfl (by decide)) h

theorem stopEffect (lines : StopLines) {s : State} (h : P s) : P (stopEffect t lines s) := by
  unfold Machine.stopEffect
  refine C.trackEvent _ _ _ _ _ ?_
  split
  · exact C.claimSafe (C.setRetire _ (C.abandon h))
  · exact C.setRetire _ (C.abandon h)

theorem flushEffect {s : State} (h : P s) : P (flushEffect t s) :=
  C.trackEvent _ _ _ _ _ (C.setRetire _ (C.modTrack (sameBinding_to (st := .stopped) rfl rfl (by decide)) h))

theorem count (o : StepOutcome) {s : State} (h : P s) : P (s.modTrack t fun c => c.countOutcome o) :=
  C.modTrack (Track.countOutcome_binding _ o) h

theorem retireStep (step : CurrentStep) (o : StepOutcome) {s : State} (h : P s) : P (retireStep t step o s).state := by
  have h1 : P (if (s.track t).loop = none then Machine.setRetire t ((s.track t).after step.pos) s else s) := by
    split
    · exact C.setRetire _ h
    · exact h
  have h3 := C.stepDone step o (C.count o h1)
  unfold Machine.retireStep
  dsimp only
  split
  · exact C.stopEffect _ h3
  · rw [Flow.state_goOn]
    exact C.modTrack (sameBinding_keep rfl rfl) h3

theorem endEffect (step : CurrentStep) (o : StepOutcome) {s : State} (h : P s) : P (endEffect t step o s) := by
  have h2 : P ((Machine.setRef t (step.due.getD 0) s).modTrack t fun c => { c with loop := none }) :=
    C.modTrack (sameBinding_keep rfl rfl) (C.setRef _ h)
  have h5 := C.stepDone step o (C.count o (C.setRetire
    ((((Machine.setRef t (step.due.getD 0) s).modTrack t fun c => { c with loop := none }).track t).after step.pos) h2))
  have h7 := C.trackEvent .ended none (recTag step.record) step.pos 0
    (C.modTrack (f := fun c => { c.idleTimers with current := none, state := .stopped })
      (sameBinding_to (st := .stopped) rfl rfl (by decide)) h5)
  unfold Machine.endEffect
  dsimp only
  split
  · exact C.stopEffect _ h7
  · exact h7

theorem beginWait (step : CurrentStep) {s : State} (h : P s) : P (beginWait t step s).state := by
  unfold Machine.beginWait
  dsimp only
  have h1 : P (s.modTrack t fun c => { c with current := some { step with waitStart := some s.time } }) :=
    C.modTrack (sameBinding_keep rfl rfl) h
  have hw := C.modTrack (f := fun c => c.toInputWait s.time (recTimeout step.record))
    (sameBinding_to (st := .inputWait) rfl rfl (by decide)) h1
  split
  · split
    · exact C.retireStep _ _ (C.setRef _ h1)
    · exact hw
  · split
    · exact C.retireStep _ _ (C.setRef _ h1)
    · exact hw

theorem takeEffect (step : CurrentStep) (late : Bool) {s : State} (h : P s) : P (takeEffect t step late s).state := by
  unfold Machine.takeEffect
  dsimp only
  split
  · exact C.retireStep _ _ (C.setRef _ (C.claimLevel _ _ h))
  · exact C.retireStep _ _ (C.setRef _ h)
  · exact C.endEffect _ _ h
  · exact C.beginWait _ h
  · exact h
  · exact h
  · exact h

theorem lateStep (step : CurrentStep) {s : State} (h : P s) : P (lateStep t step s).state := by
  unfold Machine.lateStep
  split
  · exact C.takeEffect _ _ h
  · split
    · exact C.takeEffect _ _ h
    · exact C.retireStep _ _ (C.setRef _ h)
  · exact C.enterSafe _ _ h

theorem judge (step : CurrentStep) {s : State} (h : P s) : P (judge t step s).state := by
  unfold Machine.judge
  dsimp only
  split
  · rw [Flow.state_rest]
    exact C.modTrack (sameBinding_to (st := .due) rfl rfl (by decide)) h
  · split
    · exact C.takeEffect _ _ h
    · exact C.lateStep _ (C.modTrack (sameBinding_keep rfl rfl) h)

theorem fixAndJudge (step : CurrentStep) (d : Time) {s : State} (h : P s) : P (fixAndJudge t step d s).state :=
  C.judge _ (C.modTrack (sameBinding_keep rfl rfl) h)

theorem closeLoop (e : Fetched) {s : State} (h : P s) : P (closeLoop t e s) :=
  C.setRetire _ (C.modTrack (sameBinding_keep rfl rfl) h)

theorem startStep {s : State} (h : P s) : P (startStep t s).state := by
  unfold Machine.startStep
  split
  · exact C.fixAndJudge _ _ h
  · exact h

theorem enterEmpty {s : State} (h : P s) : P (enterEmpty t s) :=
  C.modTrack (sameBinding_to (st := .empty) rfl rfl (by decide)) h

theorem takeChain (es : List Fetched) {s : State} (h : P s) : P (takeChain t es s) := by
  induction es generalizing s with
  | nil => exact C.enterEmpty h
  | cons e rest ih =>
    unfold Machine.takeChain
    dsimp only
    have h1 : P (s.modTrack t fun c => c.takeHead e rest) := C.modTrack (sameBinding_keep rfl rfl) h
    split
    · exact C.enterSafe _ _ h1
    · split
      · exact ih (C.modTrack (sameBinding_keep rfl rfl) h1)
      · split
        · exact C.enterEmpty (C.modTrack (sameBinding_keep rfl rfl) h1)
        · exact ih (C.closeLoop e h1)
      · have h2 := C.startStep h1
        split
        · next e2 => rw [e2] at h2; exact h2
        · next e2 => rw [e2] at h2; exact ih h2

theorem takeNext {s : State} (h : P s) : P (takeNext t s) := C.takeChain _ h

theorem carryOn {f : Flow} (h : P f.state) : P (carryOn t f) := by
  cases f with
  | rest s => exact h
  | goOn s => exact C.takeNext h

theorem startTrack (start : Time) {s : State} (h : P s) : P (startTrack t start s) :=
  C.takeNext (C.trackEvent _ _ _ _ _ (C.modTrack (sameBinding_keep rfl rfl) h))

theorem dueExpired (step : CurrentStep) {s : State} (h : P s) : P (dueExpired t step s) :=
  C.carryOn (C.takeEffect _ _ (C.idle h))

theorem timeoutExpired (step : CurrentStep) {s : State} (h : P s) : P (timeoutExpired t step s) := by
  unfold Machine.timeoutExpired
  split
  · exact C.enterSafe _ _ h
  · exact C.carryOn (C.retireStep _ _ (C.setRef _ (C.idle h)))

theorem waitAcceptance (l : LineId) (level : Level) {s : State} (h : P s) : P (waitAcceptance t l level s) := by
  unfold Machine.waitAcceptance
  split
  · split
    · split
      · exact C.carryOn (C.retireStep _ _ (C.setRef _ (C.idle h)))
      · exact h
    · exact h
  · exact h

theorem restartWait (step : CurrentStep) {s : State} (h : P s) : P (restartWait t step s) := C.carryOn (C.beginWait _ h)

theorem rejudge (rebase : Bool) (step : CurrentStep) {s : State} (h : P s) : P (rejudge t rebase step s) :=
  C.carryOn (C.fixAndJudge _ _ h)

theorem reportResumed {s : State} (h : P s) : P (reportResumed t s) := C.trackEvent _ _ _ _ _ h

theorem continueTrack (rebase : Bool) {s : State} (h : P s) : P (continueTrack t rebase s) := by
  unfold Machine.continueTrack
  dsimp only
  split
  · have h1 := C.reportResumed (C.modTrack (f := fun c => { c with safeCause := none }) (sameBinding_keep rfl rfl) h)
    split
    · exact C.modTrack (sameBinding_to (st := .stopped) rfl rfl (by decide)) h1
    · unfold Machine.continueSafe
      split
      · exact C.takeNext h1
      · split
        · exact C.restartWait _ h1
        · exact C.rejudge _ _ h1
  · unfold Machine.continuePaused
    split
    · exact C.rejudge _ _ (C.reportResumed h)
    · exact C.restartWait _ (C.reportResumed h)
    · exact C.takeNext (C.reportResumed h)

end TrackClosed

namespace InputClosed

variable {P : State → Prop} (C : InputClosed P)

include C

theorem afterOrder {α : Type} (xs : List α) {s : State} (h : P s) : P (s.afterOrder xs) := by
  unfold State.afterOrder
  split
  · exact h
  · exact C.choice _ s h

theorem fire (u : UnitId) (cause : FireCause) (edge : Option Time) (tag : BitVec 16) {s : State} (h : P s) :
    P (fire u cause edge tag s) :=
  (C.onTrack 0).report _ _ _ (foldl_keeps _ (fun _ t h => (C.onTrack t).forceSafe _ h) _ (C.afterOrder _ (C.unit u _ s h)))

theorem tripAcceptance (u : UnitId) (l : LineId) (level : Level) (edge : Time) {s : State} (h : P s) :
    P (tripAcceptance u l level edge s) := by
  unfold Machine.tripAcceptance
  dsimp only
  split
  · exact C.fire u _ _ _ h
  · exact h

theorem captureAcceptance (l : LineId) (level : Level) (edge : Time) (delay : BitVec 16) {s : State} (h : P s) :
    P (captureAcceptance l level edge delay s) := by
  unfold Machine.captureAcceptance
  dsimp only
  split
  · exact h
  · split
    · exact C.cell l _ _ (C.cell l _ _ ((C.onTrack 0).report _ _ s h))
    · exact C.cell l _ _ h

theorem consume (l : LineId) (level : Level) (edge : Time) (delay : BitVec 16) (c : Consumer) {s : State} (h : P s) :
    P (consume l level edge delay s c) := by
  cases c with
  | capture => exact C.captureAcceptance l level edge delay h
  | trip u => exact C.tripAcceptance u l level edge h
  | track t => exact (C.onTrack t).waitAcceptance l level h

theorem acceptance (l : LineId) (level : Level) (edge : Time) (delay : BitVec 16) {s : State} (h : P s) :
    P (acceptance l level edge delay s) :=
  foldl_keeps _ (fun _ c h => C.consume l level edge delay c h) _ (C.afterOrder _ (C.cell l _ s h))

theorem rawChanged (l : LineId) (level : Level) {s : State} (h : P s) : P (rawChanged l level s) := by
  unfold Machine.rawChanged
  dsimp only
  split
  · exact C.acceptance l _ _ _ (C.cell l _ s h)
  · split
    · exact C.cell l _ s h
    · exact C.cell l _ s h

theorem windowExpired (l : LineId) (start : Time) {s : State} (h : P s) : P (windowExpired l start s) :=
  C.acceptance l _ _ _ (C.cell l _ s h)

theorem applyWindow (l : LineId) {s : State} (h : P s) : P (applyWindow l s) := by
  unfold Machine.applyWindow
  dsimp only
  split
  · exact C.cell l _ s h
  · split
    · exact C.acceptance l _ _ _ (C.cell l _ s h)
    · exact C.cell l _ s h

theorem applySetLine (l : LineId) (m : LineMode) (level : Level) (safe : SafeMode) (window : BitVec 16) (capture : CaptureMode)
    (rq : QueueId) (interval : Bool) {s : State} (h : P s) : P (applySetLine l m level safe window capture rq interval s) := by
  unfold Machine.applySetLine
  dsimp only
  split
  all_goals split
  all_goals first
    | exact C.cell l _ _ (C.applyWindow l (C.cell l _ s h))
    | exact C.applyWindow l (C.cell l _ s h)
    | exact C.cell l _ _ (C.cell l _ s h)
    | exact C.cell l _ s h

end InputClosed

end Sys2Proof.Machine
end

