-- ==== Sys2Proof/Laws/Frames.lean ====
section
/-!
SUPPORT. What the shared operations do, said once: numbers in bytes, rings and free orders; messages; the end of a drain; the retire
word; claims on lines; entry into SAFE; the answer of a command, and the taking of one.
-/

namespace Sys2Proof.Machine

/-! ## Numbers, rings and orders -/

/-- A byte names a number below a limit exactly when it is that number. -/
theorem numberBelow_eq_some {n : Nat} {b : Byte} {i : Fin n} : numberBelow n b = some i ↔ b.toNat = i.val := by
  unfold numberBelow
  split
  · simp [Fin.ext_iff]
  · next h =>
    simp only [reduceCtorEq, false_iff]
    intro e
    exact h (e ▸ i.isLt)

theorem numberBelow_eq_none {n : Nat} {b : Byte} : numberBelow n b = none ↔ n ≤ b.toNat := by
  unfold numberBelow
  split <;> simp <;> omega

/-- The check of a ring size is that it is a power of two between the limits. -/
theorem ringSizeOk_iff {least most n : Nat} (h : most ≤ 4096) : ringSizeOk least most n = true ↔ PowerBetween least most n := by
  unfold ringSizeOk PowerBetween
  simp only [Bool.and_eq_true, decide_eq_true_eq, List.any_eq_true, List.mem_range, beq_iff_eq]
  constructor
  · rintro ⟨⟨h1, h2⟩, k, _, hk⟩
    exact ⟨h1, h2, k, hk⟩
  · rintro ⟨h1, h2, k, hk⟩
    refine ⟨⟨h1, h2⟩, k, ?_, hk⟩
    by_contra hc
    have : 2 ^ 13 ≤ 2 ^ k := Nat.pow_le_pow_right (by decide) (by omega)
    omega

/-- The distance of two ring positions without the modulus. -/
theorem ringDist_eq {size a b : Nat} (ha : a < size) (hb : b < size) :
    ringDist size a b = if b ≤ a then a - b else a + size - b := by
  unfold ringDist
  rw [Nat.mod_eq_of_lt hb]
  split
  · next h =>
    have : a + (size - b) = (a - b) + size := by omega
    rw [this, Nat.add_mod_right, Nat.mod_eq_of_lt (by omega)]
  · next h => rw [Nat.mod_eq_of_lt (by omega)]; omega

theorem ringDist_lt {size a b : Nat} (h : 0 < size) : ringDist size a b < size := Nat.mod_lt _ h

theorem ringDist_self {size a : Nat} (h : a < size) : ringDist size a a = 0 := by simp [ringDist_eq h h]

/-- A list picked by places is the list in another order. -/
theorem pick_perm {α : Type} (ks : List Nat) (xs : List α) : (pick ks xs).Perm xs := by
  induction ks generalizing xs with
  | nil => exact List.Perm.refl _
  | cons k ks ih =>
    unfold pick
    split
    · next x h =>
      have hk : k < xs.length := (List.getElem?_eq_some_iff.mp h).1
      have hx : xs[k] = x := (List.getElem?_eq_some_iff.mp h).2
      exact (List.Perm.cons x (ih _)).trans (hx ▸ (List.getElem_cons_eraseIdx_perm hk))
    · exact ih xs

/-- What is taken in a free order is what was to be taken. -/
theorem freeOrder_perm {α : Type} (s : State) (xs : List α) : (s.freeOrder xs).Perm xs := by
  unfold State.freeOrder
  split
  · exact List.Perm.refl _
  · exact pick_perm _ _

theorem mem_freeOrder {α : Type} (s : State) (xs : List α) {x : α} : x ∈ s.freeOrder xs ↔ x ∈ xs := (freeOrder_perm s xs).mem_iff

theorem freeOrder_short {α : Type} (s : State) {xs : List α} (h : xs.length ≤ 1) : s.freeOrder xs = xs := by
  simp [State.freeOrder, h]

theorem afterOrder_short {α : Type} (s : State) {xs : List α} (h : xs.length ≤ 1) : s.afterOrder xs = s := by
  simp [State.afterOrder, h]

/-- Choosing an order moves the count of free choices alone. -/
theorem afterOrder_eq {α : Type} (s : State) (xs : List α) :
    s.afterOrder xs = { s with freeIndex := if xs.length ≤ 1 then s.freeIndex else s.freeIndex + 1 } := by
  unfold State.afterOrder
  split <;> rfl

/-! ## Messages and the end of a drain -/

/-- A message goes out, or leaves a pending mark, or is dropped; it touches the link alone (R162). -/
theorem sendMessage_eq (s : State) (v : VectorId) :
    s.sendMessage v = { s with link :=
      if s.link.msiAllowed = false then s.link
      else if s.link.masked[v] then { s.link with marks := s.link.marks.set v true }
      else { s.link with out := s.link.out ++ [.message v] } } := by
  unfold State.sendMessage
  cases h : s.link.msiAllowed
  · rfl
  · simp only [Bool.not_true, Bool.false_eq_true, if_false, Bool.true_eq_false]
    split <;> rfl

/-- A message on a queue's behalf clears its count and its timer and touches the link besides (R157). -/
theorem sendFor_eq (q : QueueId) (s : State) :
    sendFor q s = (s.setRq q { s.rq q with irq := { (s.rq q).irq with unsignalled := 0, timer := none } }).sendMessage
      (s.rq q).irq.vector := rfl

/-- RESETTING ends when nothing is in flight any more; nothing else changes (R190). -/
theorem endIfDrained_eq (s : State) :
    s.endIfDrained = { s with port := { s.port with
      dev := if s.port.dev = .resetting ∧ s.link.reads = [] ∧ s.link.writes = [] then .idle else s.port.dev } } := by
  unfold State.endIfDrained
  split <;> rfl

/-! ## The retire word -/

/-- A change of the retire index: the index, and with a retire word and no write of it in flight one write of the new index (R23). -/
theorem setRetire_eq (t : TrackId) (r : Nat) (s : State) :
    setRetire t r s =
      (if (s.track t).retire ≠ r ∧ (s.track t).retireAddr ≠ 0 ∧ (s.track t).retireWrite = none then
        (s.setTrack t { s.track t with retire := r, retireWrite := some { value := r, earlier := false } }).issueWrite
          { addr := (s.track t).retireAddr, data := bytes32 (BitVec.ofNat 32 r), purpose := .retireWord t }
      else s.setTrack t { s.track t with retire := r }) := by
  unfold setRetire writeRetireWord
  by_cases h : (s.track t).retire = r
  · subst h
    simp only [ne_eq, not_true_eq_false, false_and, if_true, if_false]
    exact (s.setTrack_track t).symm
  · by_cases h2 : (s.track t).retireAddr ≠ 0 ∧ (s.track t).retireWrite = none
    · simp [h, h2]
    · simp [h]

/-! ## Entry into SAFE -/

/-- Entry into SAFE: the context, the safe-mode results of the lanes, and the report, in that order (R128 to R130). -/
theorem enterSafe_eq (t : TrackId) (cause : SafeCause) (origin : SafeFrom) (s : State) :
    enterSafe t cause origin s =
      handReport (s.track t).rq
        { source := BitVec.ofNat 8 t.val, tag := (s.track t).heldTag (s.track t).herePos, time := s.time
          body := .trackEvent .safe (some cause) (s.track t).herePos 0 (s.track t).retire }
        (claimSafe t (s.setTrack t ((s.track t).toSafe cause origin))) := by
  unfold enterSafe trackEvent claimSafe
  simp [State.modTrack, Track.toSafe, Track.idleTimers, Track.heldTag, Track.herePos, Track.nextPos]

/-! ## The answer of a command -/

theorem handAdminDone_faulted {s : State} (h : InHand) (status : Status) (result : Option AdminResult)
    (hd : s.port.dev = .faulted) : handAdminDone h status result s = s := by
  simp [handAdminDone, hd]

theorem handAdminDone_waits {s : State} (h : InHand) (status : Status) (result : Option AdminResult)
    (hd : s.port.dev ≠ .faulted) (hf : freeSlots (s.rq 0) = 0) :
    handAdminDone h status result s
      = { s with waiting := some (adminDoneReport h status result s.admin) }.setEngine (.waitSlot h) := by
  simp [handAdminDone, hd, hf]

theorem handAdminDone_posts {s : State} (h : InHand) (status : Status) (result : Option AdminResult)
    (hd : s.port.dev ≠ .faulted) (hf : 1 ≤ freeSlots (s.rq 0)) :
    handAdminDone h status result s = finishCommand h.pos (postReport 0 (adminDoneReport h status result s.admin) s) := by
  have : freeSlots (s.rq 0) ≠ 0 := by omega
  simp [handAdminDone, hd, hf]

/-! ## Taking a command -/

/-- The read of a command in flight in READY: its completion takes the command (R168). -/
theorem completeCommandRead_takes {s : State} {pos : Nat} (id : BitVec 16) (c : Command) (h : s.takes pos) :
    completeCommandRead id c s
      = settleReply (s.inHand pos id c) (commandEffect id c s.taken).1 (commandEffect id c s.taken).2 := by
  obtain ⟨hd, he, hr⟩ := h
  obtain ⟨r, hr⟩ := Option.isSome_iff_exists.mp hr
  simp [completeCommandRead, hr, hd, he, takeCommand, State.inHand]

/-- A taken command that answers at once. -/
theorem takes_answer {s s2 : State} {pos : Nat} {id : BitVec 16} {c : Command} {status : Status} {result : Option AdminResult}
    (h : s.takes pos) (he : commandEffect id c s.taken = (.answer status result, s2)) :
    completeCommandRead id c s = handAdminDone (s.inHand pos id c) status result s2 := by
  rw [completeCommandRead_takes id c h, he]; rfl

/-! ## What events of tracks and acceptances leave alone -/

/-- The parts of the state that no event of a track and no acceptance touches. -/
def SameOutside (s0 s : State) : Prop :=
  s.time = s0.time ∧ s.port = s0.port ∧ s.admin = s0.admin ∧ s.lastGranted = s0.lastGranted ∧ s.pins = s0.pins
    ∧ s.sampler = s0.sampler ∧ s.waiting = s0.waiting ∧ s.link.reads = s0.link.reads ∧ s.link.masked = s0.link.masked ∧ s.link.marks = s0.link.marks
    ∧ s.link.msiAllowed = s0.link.msiAllowed ∧ s.pending = s0.pending

theorem sameOutside_refl (s : State) : SameOutside s s := ⟨rfl, rfl, rfl, rfl, rfl, rfl, rfl, rfl, rfl, rfl, rfl, rfl⟩

theorem sameOutside_trackClosed (s0 : State) (t : TrackId) : TrackClosed t (SameOutside s0) where
  report q r s h := by simpa [SameOutside] using h
  context c s _ h := by simpa [SameOutside] using h
  claim f s _ _ h := by simpa [SameOutside] using h
  retireWord a d s h := by simpa [SameOutside] using h

/-- Every event of a track and every acceptance leaves the time, the registers, the admin engine, the arbiter, the pins, the sampler, the
waiting ADMIN-DONE, the reads in flight and the queue of commands as they were. -/
theorem sameOutside_inputClosed (s0 : State) : InputClosed (SameOutside s0) where
  onTrack t := sameOutside_trackClosed s0 t
  cell l c s h := by simpa [SameOutside] using h
  unit u c s h := by simpa [SameOutside] using h
  choice n s h := h

/-- An event of a track leaves every other track and every trip unit alone. -/
theorem otherTrack_trackClosed (s0 : State) (t : TrackId) :
    TrackClosed t (fun s => (∀ k, k ≠ t → s.track k = s0.track k) ∧ s.trips = s0.trips) where
  report q r s h := by simpa using h
  context c s _ h := ⟨fun k hk => by rw [State.track_setTrack_ne _ _ hk]; exact h.1 k hk, h.2⟩
  claim f s _ _ h := by simpa using h
  retireWord a d s h := by simpa using h

/-- An event of a track leaves every line alone that is not one of its lanes, and of its lanes changes the drive alone. -/
theorem lines_trackClosed (s0 : State) (t : TrackId) :
    TrackClosed t (fun s => ∀ l, s.line l = { s0.line l with drive := (s.line l).drive }
      ∧ ((s0.line l).ownedBy t = false → s.line l = s0.line l)) where
  report q r s h := by simpa using h
  context c s _ h := h
  claim f s ho hd h l := by
    have hown : (s.line l).ownedBy t = (s0.line l).ownedBy t := by rw [(h l).1]; rfl
    rw [State.line_mapLines]
    refine ⟨?_, fun hn => ?_⟩
    · have h1 := (h l).1
      rw [hd l (s.line l)]
      generalize s.line l = c at h1
      generalize f l c = e
      rw [h1]
    · rw [ho l _ (hown.trans hn)]
      exact (h l).2 hn
  retireWord a d s h := h

/-! ## Resets -/

@[simp] theorem track_resetBlocks (s : State) (t : TrackId) : (resetBlocks s).track t = (s.track t).afterReset := by
  unfold resetBlocks State.track
  simp only [Fin.getElem_fin, Vector.getElem_ofFn]

@[simp] theorem line_resetBlocks (s : State) (l : LineId) : (resetBlocks s).line l = (s.line l).afterReset (s.pin l) := by
  have h : (resetBlocks s).line l = (claimReset s).line l := by unfold resetBlocks State.line; rfl
  rw [h]
  unfold claimReset
  rw [State.line_mapLines]

/-- What a reset does to every other piece of state at the start of RESETTING (R189). -/
theorem resetBlocks_eq (s : State) :
    resetBlocks s = { s with
      port := s.port.afterReset, admin := Admin.afterReset, lastGranted := 7, tracks := (resetBlocks s).tracks
      lines := (resetBlocks s).lines, trips := Vector.replicate 2 Trip.afterReset, rqs := Vector.replicate 8 ReportQueue.absent
      waiting := none, link := { s.link with marks := Vector.replicate 8 false } } := by
  unfold resetBlocks claimReset State.mapLines
  rfl

/-- A soft reset out of RESETTING: the reads that stay in flight are some of those that were, in their order (R190). -/
theorem softReset_eq {s : State} (h : s.port.dev ≠ .resetting) :
    ∃ reads n, reads.Sublist s.link.reads
      ∧ softReset s = { resetBlocks s with link := { s.link with reads := reads, marks := Vector.replicate 8 false }, freeIndex := n }.endIfDrained
      := by
  have hl : (resetBlocks s).link = { s.link with marks := Vector.replicate 8 false } := by rw [resetBlocks_eq]
  have hf : (resetBlocks s).freeIndex = s.freeIndex := by rw [resetBlocks_eq]
  unfold softReset abandonUncarried
  rw [if_neg h]
  generalize resetBlocks s = b at hl hf
  rw [hl, hf]
  by_cases hr : s.link.reads = []
  · refine ⟨s.link.reads, s.freeIndex, List.Sublist.refl _, ?_⟩
    rw [if_pos hr, ← hf, ← hl]
  · exact ⟨_, _, List.filter_sublist, by rw [if_neg hr]⟩

/-! ## The race of a fire and a START-TRACKS -/

/-- What `racedByFire` says: a track in SAFE that a fire of this device time has moved, its unit FIRED and naming it. -/
theorem racedByFire_iff {s : State} {t : TrackId} : racedByFire s t = true ↔
    (s.track t).state = .safe ∧ ∃ (u : UnitId) (r : FireRecord), (s.trip u).state = .fired
      ∧ (s.trip u).mask.getLsbD t.val = true ∧ (s.trip u).lastFire = some r ∧ r.time = s.time ∧ r.moved.getLsbD t.val = true := by
  simp [racedByFire, Option.any_eq_true, and_assoc]

/-- A FIRED unit names the track of such a race, so the third check of START-TRACKS refuses it (R64). -/
theorem tripHolds_of_racedByFire {s : State} {t : TrackId} (h : racedByFire s t = true) : tripHolds s t = true := by
  obtain ⟨-, u, r, hf, hm, -⟩ := racedByFire_iff.1 h
  simp only [tripHolds, List.any_eq_true, Bool.and_eq_true, decide_eq_true_eq]
  exact ⟨u, List.mem_finRange u, hf, hm⟩

end Sys2Proof.Machine
end

