-- ==== Sys2Proof/Tests/Slice0.lean ====
section
/-!
SUPPORT. The author's own tests: ill-formed commands that the check refuses, records written out byte by byte from R192 and R194, one
step of each command on a small state with the result the spec's rules give, and for every statement with hypotheses a state and
operands that meet them.
-/

set_option maxRecDepth 8000

namespace Sys2Proof.Tests

open Sys2Proof.Machine

/-! ## Small states -/

/-- The next state of a command. -/
def after (c : Instr) (s : State) : State :=
  match exec c s with
  | .next t => t
  | .fault _ => s
  | .refused _ => s

/-- A record from its first bytes, the rest 0. -/
def stepRecord (bytes : List Byte) : StepRecord := Vector.ofFn fun i => bytes.getD i.val 0

/-- A command record from its first bytes, the rest 0. -/
def commandRecord (bytes : List Byte) : CommandRecord := Vector.ofFn fun i => bytes.getD i.val 0

/-- LEVEL, notify 0, ABS, tag 7, due 1000 (03E8H), mask 1, value 1 (R192). -/
def levelAt1000 : StepRecord := stepRecord [1, 0, 1, 0, 7, 0, 0, 0, 0xE8, 0x03, 0, 0, 0, 0, 0, 0, 1, 0, 1, 0]

/-- MARK, notify 1, ABS, tag 9, due 1000 (R192). -/
def markAt1000 : StepRecord := stepRecord [2, 1, 1, 0, 9, 0, 0, 0, 0xE8, 0x03]

/-- END, notify 0, ABS, tag 5, due 1000 (R192). -/
def endAt1000 : StepRecord := stepRecord [6, 0, 1, 0, 5, 0, 0, 0, 0xE8, 0x03]

/-- WAIT, notify 0, NOW, tag 3, line 5, HIGH, GO-ON, timeout 100 (R192). -/
def waitHigh : StepRecord := stepRecord [3, 0, 3, 0, 3, 0, 0, 0, 0, 0, 0, 0, 0, 0, 0, 0, 5, 1, 1, 0, 100, 0, 0, 0]

/-- The same WAIT with FAULT. -/
def waitFault : StepRecord := stepRecord [3, 0, 3, 0, 3, 0, 0, 0, 0, 0, 0, 0, 0, 0, 0, 0, 5, 1, 2, 0, 100, 0, 0, 0]

/-- LEVEL, REL, due 50: with mask 1 and value 0 (R192). -/
def levelRel50 : StepRecord := stepRecord [1, 0, 2, 0, 7, 0, 0, 0, 50, 0, 0, 0, 0, 0, 0, 0, 1, 0, 0, 0]

/-- LOOP of two passes (R192). -/
def loopTwice : StepRecord := stepRecord [4, 0, 0, 0, 0, 0, 0, 0, 0, 0, 0, 0, 0, 0, 0, 0, 2, 0]

/-- NEXT (R192). -/
def nextRecord : StepRecord := stepRecord [5]

/-- An ACTIVE queue of 16 slots, with interrupts on vector 2, threshold 2 and a delay of 3 microseconds. -/
def queue16 : ReportQueue :=
  { ReportQueue.absent with
    state := .active
    base := 0x1000
    size := 16
    pass := true
    irq := { enable := true, vector := 2, threshold := 2, delay := 3, unsignalled := 0, timer := none } }

/-- A queue without a free slot. -/
def queueFull : ReportQueue := { queue16 with write := 3, release := 3, lap := true }

/-- A STOPPED track of 8 positions with lanes L0 and L1, reporting to RQ1. -/
def stopped : Track :=
  { Track.powerOn with
    state := .stopped
    pausedFrom := some .due
    sqBase := 0x4000
    sqSize := 8
    post := 2
    lanes := [0, 1]
    rq := 1
    latePolicy := .skip
    tolerance := 10
    holdLimit := 2 }

/-- A current step at position 0 whose due time is fixed. -/
def current (r : StepRecord) (due : Time) : CurrentStep := { record := r, pos := 0, due := some due, waitStart := none, pass := 0 }

/-- A current WAIT at position 0 that has begun at 950. -/
def begun (r : StepRecord) : CurrentStep := { record := r, pos := 0, due := some 950, waitStart := some 950, pass := 0 }

/-- A track in DUE for 1000 with one record current and none in the list. -/
def dueTrack (r : StepRecord) : Track :=
  { stopped with state := .due, current := some (current r 1000), dueTimer := some 1000, fetch := 1 }

/-- A track in INPUT-WAIT since 950. -/
def waitTrack (r : StepRecord) : Track :=
  { stopped with state := .inputWait, current := some (begun r), timeoutTimer := some 1050, fetch := 1 }

/-- An EMPTY track whose hold timer is due at 1000. -/
def emptyTrack : Track := { stopped with state := .empty, holdTimer := some 1000 }

/-- A line in TRACK mode, lane of T0. -/
def laneLine (lane : Fin 16) : Line :=
  { Line.powerOn with mode := .track, owner := some { track := 0, lane := lane }, drive := .low, safeMode := .high }

/-- READY at time 1000, RQ0 and RQ1 ACTIVE, the admin queue of 4 positions with one command posted. -/
def ready : State :=
  { State.reset with
    time := 1000
    port := { Port.powerOn with dev := .ready, run := true, aqsz := 4, r0sz := 16 }
    admin := { base := 0x2000, size := 4, post := 1, taken := 0, engine := .idleWait }
    rqs := ((Vector.replicate 8 ReportQueue.absent).set 0 queue16).set 1 queue16
    lines := ((Vector.replicate 48 Line.powerOn).set 0 (laneLine 0)).set 1 (laneLine 1) }

/-- The command read in flight: the engine takes what it completes with. -/
def fetching (s : State) : State :=
  { s with
    admin := { s.admin with engine := .fetching 0 }
    link := { s.link with reads := s.link.reads ++ [{ who := .admin, issued := 900 }] } }

/-- READY with the command read in flight and T0 as given. -/
def taking (c : Track) : State := fetching (ready.setTrack 0 c)

/-- The taken command is one the engine takes. -/
theorem taking_takes (c : Track) : (taking c).takes 0 := ⟨rfl, rfl, rfl⟩

/-- A command in hand. -/
def hand : InHand := { pos := 0, id := 0x0102, command := .identify 0x800, taking := 990 }

/-- A step read of T0 in flight, with its record. -/
def reading (c : Track) (stale : Bool) : State :=
  let s := ready.setTrack 0 { c with read := some { start := c.fetch, count := 1, stale := stale } }
  { s with link := { s.link with reads := [{ who := .track 0, issued := 900 }] } }

/-- A retire-word write of T0 in flight. -/
def writingWord (c : Track) (value : Nat) (earlier : Bool) : State :=
  (ready.setTrack 0 { c with retireAddr := 0x80, retireWrite := some { value := value, earlier := earlier } }).issueWrite
    { addr := 0x80, data := [], purpose := .retireWord 0 }

/-- An entry write of a queue in flight. -/
def entryWrite (q : QueueId) (s : State) : State := s.issueWrite { addr := 0x1000, data := [], purpose := .entry q 0 7 }

/-- The queue with one entry write in flight. -/
def withEntry (q : QueueId) (c : ReportQueue) : State := entryWrite q (ready.setRq q { c with write := 1, inFlight := 1 })

/-- A running INPUT line with a settle window of 2 microseconds, SETTLED at LOW. -/
def inputLine : Line := { Line.powerOn with mode := .input, window := 2 }

/-- The same line PENDING since 900. -/
def pendingLine : Line := { inputLine with raw := .high, pendingStart := some 900, windowTimer := some 1100 }

/-! ## Ill-formed commands -/

theorem test_unknown_opcode_that_is_named : Instr.wellFormed (.unknownOpcode 1 0x11) = false := by decide

theorem test_unknown_opcode_that_is_not : Instr.wellFormed (.unknownOpcode 1 0x12) = true := by decide

theorem test_register_write_of_ctrl : Instr.wellFormed (.registerWrite 0x04 .word 1) = false := by decide

theorem test_register_write_of_post : Instr.wellFormed (.registerWrite 0x24 .word 1) = false := by decide

theorem test_register_write_of_rlse : Instr.wellFormed (.registerWrite 0x28 .word 1) = false := by decide

theorem test_narrow_register_write : Instr.wellFormed (.registerWrite 0x04 .half 1) = true := by decide

/-! ## Records written out from R192 and R194 -/

/-- FIRE-TRIP, id 1234H, unit 1. -/
theorem test_record_fire_trip :
    decodeCommand (commandRecord [0x11, 0, 0x34, 0x12, 0, 0, 0, 0, 1]) = (0x1234, .fireTrip 1) := by decide

/-- START-TRACKS AT, mask 3, start 0102030405060708H. -/
theorem test_record_start_tracks :
    decodeCommand (commandRecord [0x07, 0, 1, 0, 0, 0, 0, 0, 3, 2, 0, 0, 0, 0, 0, 0, 8, 7, 6, 5, 4, 3, 2, 1])
      = (1, .startTracks 3 2 0x0102030405060708) := by decide

/-- CREATE-RQ of RQ1: vector 2, threshold 3, enabled, delay 0405H, size 0010H, base 20H. -/
theorem test_record_create_rq :
    decodeCommand (commandRecord [0x0C, 0, 1, 0, 0, 0, 0, 0, 1, 2, 3, 1, 5, 4, 0x10, 0, 0x20])
      = (1, .createRq { queue := 1, vector := 2, threshold := 3, enable := 1, delay := 0x0405, size := 16, base := 0x20 }) := by
  decide

theorem test_record_unknown : decodeCommand (commandRecord [0x12, 0, 1, 0]) = (1, .unknown 0x12) := by decide

theorem test_step_record_fields :
    recKind waitHigh = some .wait ∧ recDueMode waitHigh = some .now ∧ recTag waitHigh = 3 ∧ recLine waitHigh = some 5
      ∧ recCond waitHigh = some .high ∧ recOnTimeout waitHigh = some .goOn ∧ recTimeout waitHigh = 100 := by decide

/-! ## One step of each command -/

/-- Byte `i` of the entry that was issued last. -/
def lastEntryByte (i : Nat) (s : State) : Option Byte := s.link.writes.getLast?.bind (·.data[i]?)

/-- The status that the last entry, an ADMIN-DONE, carries in byte 16 (R193). -/
def lastStatus (s : State) : Option Byte := lastEntryByte 16 s

theorem test_power_on : (after .powerOn ready).time = 0 ∧ (after .powerOn ready).port.dev = .idle := by decide

theorem test_port_reset :
    ((after .portReset (taking (dueTrack levelAt1000))).track 0).state = .unbound
      ∧ ((after .portReset (taking (dueTrack levelAt1000))).line 0).drive = .high := by decide

theorem test_soft_reset_waits_for_writes : (after (.ctrlReset false) (withEntry 1 queue16)).port.dev = .resetting := by decide

theorem test_run_from_idle :
    (after (.ctrlRun true) { State.reset with port := { Port.powerOn with aqsz := 4, r0sz := 16 } }).port.dev = .ready := by decide

theorem test_run_with_bad_aq_size :
    (after (.ctrlRun true) { State.reset with port := { Port.powerOn with aqsz := 5, r0sz := 16 } }).port.configError = .aqSize := by
  decide

theorem test_post_full_ring : ((after (.post 1 7) (ready.setTrack 0 stopped)).track 0).post = 7 := by decide

theorem test_post_refused : lastEntryByte 5 (after (.post 1 8) (ready.setTrack 0 stopped)) = some 1 := by decide

theorem test_release : ((after (.rlse 1 3) (ready.setRq 1 { queue16 with write := 3 })).rq 1).release = 3 := by decide

theorem test_release_refused : lastEntryByte 5 (after (.rlse 1 4) (ready.setRq 1 { queue16 with write := 3 })) = some 2 := by decide

theorem test_timl_read :
    (after .timlRead { ready with time := 0x100000002 }).port.readData = 2
      ∧ (after .timlRead { ready with time := 0x100000002 }).port.timh = 1 := by decide

theorem test_register_write_in_idle : (after (.registerWrite 0x14 .word 8) State.reset).port.aqsz = 8 := by decide

theorem test_register_write_out_of_idle : (after (.registerWrite 0x14 .word 8) ready).port.aqsz = 4 := by decide

theorem test_read_issue :
    ((after .readIssue (ready.setTrack 0 emptyTrack)).track 0).read = some { start := 0, count := 2, stale := false } := by decide

theorem test_step_read_runs_record :
    ((after (.stepReadCompletion 0 (Vector.replicate 8 levelAt1000)) (reading emptyTrack false)).line 0).drive = .high
      ∧ ((after (.stepReadCompletion 0 (Vector.replicate 8 levelAt1000)) (reading emptyTrack false)).track 0).retire = 1 := by decide

theorem test_step_read_error : ((after (.stepReadError 0) (reading stopped false)).track 0).safeCause = some .hostMemory := by decide

theorem test_read_timeout :
    ((after (.readTimeout (.track 0)) { reading stopped false with time := 1000900 }).track 0).state = .safe := by decide

theorem test_read_before_limit :
    ((after (.readTimeout (.track 0)) { reading stopped false with time := 1000899 }).track 0).state = .stopped := by decide

theorem test_admin_read :
    ((after (.adminReadCompletion (commandRecord [0x11, 0, 0x34, 0x12, 0, 0, 0, 0, 1])) (taking stopped)).trip 1).state = .fired := by
  decide

theorem test_unknown_opcode : lastStatus (after (.unknownOpcode 1 0x12) (taking stopped)) = some 1 := by decide

theorem test_admin_read_error : (after .adminReadError (taking stopped)).port.faultCause = .aqFetch := by decide

theorem test_identify : (after (.identify 1 0x800) (taking stopped)).link.writes.map (·.data.length) = [48] := by decide

theorem test_set_line :
    ((after (.setLine 1 { line := 5, mode := 2, staticLevel := 0, safeMode := 1, window := 2, captureMode := 0, captureRq := 0,
                          interval := false }) (taking stopped)).line 5).mode = .input := by decide

theorem test_set_line_of_a_lane :
    lastStatus (after (.setLine 1 { line := 0, mode := 1, staticLevel := 0, safeMode := 1, window := 2, captureMode := 0,
                                    captureRq := 0, interval := false }) (taking stopped)) = some 7 := by decide

theorem test_set_static_refused : lastStatus (after (.setStatic 1 1 1) (taking stopped)) = some 5 := by decide

theorem test_snapshot : (after (.snapshot 1 0x800 false) (taking stopped)).admin.taken = 0 := by decide

theorem test_bind_track :
    ((after (.bindTrack 1 { track := 1, laneCount := 2, latePolicy := 1, rq := 1, tolerance := 0, holdLimit := 0, pattern := 2,
                            sqSize := 4, sqBase := 0x40, retireAddr := 0,
                            lanes := Vector.ofFn fun i => BitVec.ofNat 8 (i.val + 10) }) (taking stopped)).line 11).drive = .high := by
  decide

theorem test_unbind_track : ((after (.unbindTrack 1 0) (taking stopped)).line 0).mode = .off := by decide

theorem test_start_tracks_now :
    ((after (.startTracks 1 1 1 0) (taking stopped)).track 0).holdTimer = some 1200 := by decide

theorem test_stop_track_parks : ((after (.stopTrack 1 0 1 2) (taking (dueTrack levelAt1000))).line 1).drive = .high := by decide

theorem test_pause_track : ((after (.pauseTrack 1 0) (taking (dueTrack levelAt1000))).track 0).pausedFrom = some .due := by decide

theorem test_resume_track_flush :
    ((after (.resumeTrack 1 0 2 0) (taking { stopped with state := .safe })).track 0).retire = 2 := by decide

theorem test_track_status : (after (.trackStatus 1 0 0x800) (taking stopped)).link.writes.map (·.data.length) = [80] := by decide

theorem test_create_rq :
    ((after (.createRq 1 { queue := 2, vector := 7, threshold := 1, enable := 1, delay := 0, size := 16, base := 0x20 })
      (taking stopped)).rq 2).state = .active := by decide

theorem test_delete_rq_in_use : lastStatus (after (.deleteRq 1 1) (taking stopped)) = some 9 := by decide

theorem test_set_rq_interrupt :
    ((after (.setRqInterrupt 1 { queue := 1, enable := 0, vector := 1, threshold := 1, delay := 0 }) (taking stopped)).rq 1).irq.enable
      = false := by decide

theorem test_set_trip_fires_at_once :
    ((after (.setTrip 1 { unit := 0, source := 5, condition := 4, enable := 1, mask := 1 }) (taking stopped)).track 0).safeCause
      = some (.trip 0) := by decide

theorem test_clear_trip_not_fired : lastStatus (after (.clearTrip 1 0) (taking stopped)) = some 5 := by decide

theorem test_fire_trip : ((after (.fireTrip 1 1) (taking stopped)).trip 1).state = .fired := by decide

theorem test_buffer_write_error :
    lastStatus (after (.bufferWriteCompletion true)
      ((ready.setEngine (.writing hand)).issueWrite { addr := 0x800, data := [], purpose := .buffer })) = some 12 := by decide

theorem test_start_time_reached :
    ((after (.startTimeReached 0) (ready.setTrack 0 { stopped with state := .armed, startTime := some 1000 })).track 0).refTime
      = 1000 := by decide

theorem test_due_timer : ((after (.dueTimerExpiry 0) (ready.setTrack 0 (dueTrack levelAt1000))).line 0).drive = .high := by decide

theorem test_due_timer_of_end : ((after (.dueTimerExpiry 0) (ready.setTrack 0 (dueTrack endAt1000))).track 0).state = .stopped := by
  decide

theorem test_timeout_fault :
    ((after (.timeoutTimerExpiry 0) { ready.setTrack 0 (waitTrack waitFault) with time := 1050 }).track 0).safeCause
      = some .waitTimeout := by decide

theorem test_hold_timer : ((after (.holdTimerExpiry 0) (ready.setTrack 0 emptyTrack)).track 0).safeCause = some .starved := by decide

theorem test_retire_word_follows :
    ((after (.retireWordWriteDone 0) (writingWord { stopped with retire := 2 } 1 false)).track 0).retireWrite
      = some { value := 2, earlier := false } := by decide

theorem test_retire_word_error : ((after (.retireWordWriteError 0) (writingWord stopped 1 false)).track 0).state = .safe := by decide

/-- A second change of the line at the same device time is left to the next tick's sample (R99). -/
theorem test_raw_change :
    ((after (.rawChange 5 .high) (ready.setLine 5 inputLine)).line 5).windowTimer = some 1200
      ∧ ((after (.rawChange 5 .low) (after (.rawChange 5 .high) (ready.setLine 5 inputLine))).line 5).raw = .high := by decide

theorem test_tick_samples_the_pin :
    (tick (after (.rawChange 5 .low) (after (.rawChange 5 .high) (ready.setLine 5 inputLine)))).pending = [.rawChange 5 .low] := by
  decide

theorem test_raw_change_back_is_a_glitch : ((after (.rawChange 5 .low) (ready.setLine 5 pendingLine)).line 5).glitch = 1 := by decide

theorem test_window_expiry :
    ((after (.windowExpiry 5) { ready.setLine 5 pendingLine with time := 1100 }).line 5).accepted = .high := by decide

theorem test_entry_write_reaches_threshold :
    (after (.entryWriteCompletion 1) (withEntry 1 { queue16 with irq := { queue16.irq with unsignalled := 1 } })).link.out.getLast?
      = some (.message 2) := by decide

theorem test_entry_write_error : ((after (.entryWriteError 1) (withEntry 1 queue16)).rq 1).state = .failed := by decide

theorem test_delay_timer :
    ((after (.delayTimerExpiry 1)
      (ready.setRq 1 { queue16 with irq := { queue16.irq with unsignalled := 1, timer := some 1000 } })).rq 1).irq.unsignalled = 0 := by
  decide

theorem test_vector_unmask :
    (after (.vectorUnmask 2) { ready with link := { ready.link with marks := ready.link.marks.set 2 true } }).link.out
      = [.message 2] := by decide

theorem test_vector_mask : (after (.vectorMask 2) ready).link.masked[2] = true := by decide

/-! ## The statements' hypotheses are met -/

/-- What is absent is no value. -/
theorem absent_is_not {α : Type} {x : Option α} {a : α} {p : Prop} (h : x = none) (e : x = some a) : p := by rw [h] at e; cases e

theorem witness_StepRunsFrontCommand :
    ({ State.reset with pending := [.timlRead, .readIssue] } : State).pending = Instr.timlRead :: [.readIssue] := rfl

theorem witness_EmptyQueueTicks : State.reset.pending = [] := rfl

theorem witness_ResetBlocksAndDrain : (taking (dueTrack levelAt1000)).port.dev ≠ .resetting := by decide

/-- One line of each mode. -/
def fiveModes : State :=
  ((((ready.setLine 2 inputLine).setLine 3 { Line.powerOn with mode := .static, drive := .low })).setLine 4
    { Line.powerOn with mode := .parked })

theorem witness_ResetParksLines :
    fiveModes.port.dev ≠ .resetting ∧ (fiveModes.line 5).mode = .off ∧ (fiveModes.line 2).mode = .input
      ∧ (fiveModes.line 3).mode = .static ∧ (fiveModes.line 0).mode = .track ∧ (fiveModes.line 4).mode = .parked := by decide

/-- RESETTING at 1000900 with a read of each requester's kind and a write of each purpose in flight. -/
def resetting : State :=
  let s := { ready.setDev .resetting with time := 1000900 }
  { s with link := { s.link with reads := [{ who := .track 0, issued := 900 }, { who := .admin, issued := 900 }],
                                 writes := [{ addr := 0x1000, data := [], purpose := .entry 1 0 7 },
                                            { addr := 0x80, data := [], purpose := .retireWord 0 },
                                            { addr := 0x800, data := [], purpose := .buffer }] } }

theorem witness_ResettingTakesNothing :
    resetting.port.dev = .resetting ∧ (resetting.readOf (.track 0)).isSome = true ∧ (resetting.readOf .admin).isSome = true
      ∧ (resetting.writeOf (WritePurpose.isEntryOf 1)).isSome = true
      ∧ (resetting.writeOf (WritePurpose.isRetireWordOf 0)).isSome = true ∧ (resetting.writeOf WritePurpose.isBuffer).isSome = true
      ∧ resetting.readOf .admin = some { who := .admin, issued := 900 } ∧ (900 : Time) + 1000000 ≤ resetting.time := by decide

theorem witness_RegisterWrites :
    State.reset.port.dev = .idle ∧ ready.port.dev ≠ .idle ∧ (0x08 : BitVec 32) ≠ 0x04 ∧ (0x08 : BitVec 32) ≠ 0x24
      ∧ (0x08 : BitVec 32) ≠ 0x28 := by decide

theorem witness_RunRequest_idle : State.reset.port.dev = .idle ∧ RunChecks State.reset.port .aqSize := by
  refine ⟨rfl, ?_⟩
  have h : ¬PowerBetween 4 256 State.reset.port.aqsz.toNat := fun h => absurd h.1 (by decide)
  exact ⟨fun _ => rfl, fun h' => absurd h' h, fun h' => absurd h' h, fun h' => absurd h' h, fun h' => absurd h' h⟩

theorem witness_RunRequest_pass : (ready.setDev .idle).port.dev = .idle ∧ RunChecks (ready.setDev .idle).port .none := by
  refine ⟨rfl, ?_⟩
  have h1 : PowerBetween 4 256 (ready.setDev .idle).port.aqsz.toNat := ⟨by decide, by decide, 2, rfl⟩
  have h2 : PowerBetween 16 4096 (ready.setDev .idle).port.r0sz.toNat := ⟨by decide, by decide, 4, rfl⟩
  have h3 : 64 ∣ ((ready.setDev .idle).port.aqbh ++ (ready.setDev .idle).port.aqbl).toNat := by decide
  have h4 : 32 ∣ ((ready.setDev .idle).port.r0bh ++ (ready.setDev .idle).port.r0bl).toNat := by decide
  exact ⟨fun h => absurd h1 h, fun _ h => absurd h3 h, fun _ _ h => absurd h2 h, fun _ _ _ h => absurd h4 h, fun _ _ _ _ => rfl⟩

theorem witness_RunRequest_elsewhere :
    (ready.port.dev = .ready ∧ ready.port.run = true ∧ ready.admin.engine = .idleWait)
      ∧ ((fetching ready).port.run = true ∧ (fetching ready).admin.engine ≠ .idleWait)
      ∧ (({ ready with port := { ready.port with run := false } } : State).port.run = false)
      ∧ (ready.setDev .halted).port.dev = .halted ∧ (ready.setDev .faulted).port.dev = .faulted := by decide

theorem witness_PostChecked :
    ready.live
      ∧ ((3 : BitVec 16).toNat < ready.admin.size
        ∧ ringDist ready.admin.size ready.admin.post ready.admin.taken + ringDist ready.admin.size 3 ready.admin.post
          ≤ ready.admin.size - 1)
      ∧ ¬(4 : BitVec 16).toNat < ready.admin.size ∧ ¬State.reset.live
      ∧ ((ready.setTrack 0 stopped).track 0).state ≠ .unbound ∧ 8 < (9 : BitVec 4).toNat := by
  refine ⟨Or.inl rfl, by decide, by decide, ?_, by decide, by decide⟩
  rintro (h | h) <;> exact absurd h (by decide)

theorem witness_ReportDecision :
    (State.reset.rq 1).state = .absent
      ∧ ((ready.setRq 1 { queue16 with state := .failed }).rq 1).state = .failed
      ∧ ¬(reserve 0 < freeSlots { queue16 with write := 15 })
      ∧ (ready.port.dev ≠ .faulted ∧ (ready.rq 1).state = .active ∧ (ready.rq 1).closing = false
        ∧ reserve 1 < freeSlots (ready.rq 1) ∧ (ready.rq 1).counts = OverflowCounts.zero)
      ∧ reserve 0 < freeSlots { queue16 with write := 14 } := by decide

theorem witness_ReleaseChecked :
    ready.live ∧ (1 : QueueId) ≠ 0
      ∧ (releaseOk { queue16 with write := 3 } 0 = true ∧ ringDist 16 0 0 = 0)
      ∧ (releaseOk { queue16 with write := 3 } 3 = true ∧ ringDist 16 3 0 ≠ 0 ∧ overflowPending { queue16 with write := 3 } = false)
      ∧ (releaseOk { queueFull with counts := { OverflowCounts.zero with capture := 1 } } 4 = true ∧ ringDist 16 4 3 ≠ 0
        ∧ overflowPending { queueFull with counts := { OverflowCounts.zero with capture := 1 } } = true
        ∧ reserve 1 < freeSlots { queueFull with release := 4, lap := false })
      ∧ releaseOk { queue16 with write := 3 } 4 = false ∧ ¬State.reset.live ∧ 8 ≤ (8 : BitVec 4).toNat := by
  refine ⟨Or.inl rfl, by decide, by decide, by decide, by decide, by decide, ?_, by decide⟩
  rintro (h | h) <;> exact absurd h (by decide)

/-- RQ0 full with the ADMIN-DONE of the command in hand waiting. -/
def waitSlot : State :=
  { ready.setRq 0 queueFull with
    waiting := some (adminDoneReport hand .ok none ready.admin), admin := { ready.admin with engine := .waitSlot hand } }

/-- The same with a CAPTURE lost. -/
def waitSlotLost : State := waitSlot.setRq 0 { queueFull with counts := { OverflowCounts.zero with capture := 1 } }

/-- A release of one slot leaves the OVERFLOW pending, a release of two posts it. -/
theorem witness_ReleasePostsWaiting :
    waitSlot.port.dev = .ready ∧ waitSlot.waiting = some (adminDoneReport hand .ok none ready.admin)
      ∧ waitSlot.admin.engine = .waitSlot hand ∧ overflowPending (waitSlot.rq 0) = false
      ∧ waitSlotLost.waiting = some (adminDoneReport hand .ok none ready.admin) ∧ overflowPending (waitSlotLost.rq 0) = true
      ∧ releaseOk (waitSlotLost.rq 0) 4 = true ∧ freeSlots { waitSlotLost.rq 0 with release := 4, lap := false } = 1
      ∧ releaseOk (waitSlotLost.rq 0) 5 = true ∧ 2 ≤ freeSlots { waitSlotLost.rq 0 with release := 5, lap := false }
      ∧ releaseOk (waitSlot.rq 0) (4 : BitVec 16).toNat = true
      ∧ ringDist (waitSlot.rq 0).size (4 : BitVec 16).toNat (waitSlot.rq 0).release ≠ 0
      ∧ 1 ≤ freeSlots { waitSlot.rq 0 with release := (4 : BitVec 16).toNat, lap := false } := by decide

theorem witness_EntryWriteCounts :
    (withEntry 1 queue16).port.dev ≠ .resetting ∧ (withEntry 1 queue16).port.dev ≠ .faulted
      ∧ ((withEntry 1 queue16).writeOf (WritePurpose.isEntryOf 1)).isSome = true ∧ ((withEntry 1 queue16).rq 1).state ≠ .absent
      ∧ ((withEntry 1 queue16).rq 1).closing = false ∧ queue16.irq.enable = true
      ∧ queue16.irq.unsignalled + 1 ≠ queue16.irq.threshold
      ∧ { queue16.irq with unsignalled := 1 }.unsignalled + 1 = queue16.irq.threshold
      ∧ (withEntry 1 queue16).link.msiAllowed = true ∧ (withEntry 1 queue16).link.masked[queue16.irq.vector] = false := by decide

/-- A closing RQ1 with its last entry write in flight, interrupts enabled and one entry counted, and the DELETE-RQ that waits for it. -/
def drainingEnabled : State :=
  (withEntry 1 queue16).setRq 1 { queue16 with closing := true, inFlight := 1, irq := { queue16.irq with unsignalled := 1 } }
    |>.setEngine (.executing hand 1 (.deleted .active OverflowCounts.zero))

theorem witness_EntryWriteCounts_closing :
    (drainingEnabled.writeOf (WritePurpose.isEntryOf 1)).isSome = true ∧ (drainingEnabled.rq 1).state ≠ .absent
      ∧ (drainingEnabled.rq 1).closing = true ∧ (drainingEnabled.rq 1).inFlight ≤ 1 ∧ drainingEnabled.port.dev ≠ .resetting
      ∧ drainingEnabled.admin.engine = .executing hand 1 (.deleted .active OverflowCounts.zero)
      ∧ (drainingEnabled.rq 1).irq.enable = true
      ∧ (drainingEnabled.rq 1).irq.unsignalled + 1 = (drainingEnabled.rq 1).irq.threshold
      ∧ ((drainingEnabled.setDev .faulted).setEngine .idleWait).port.dev = .faulted
      ∧ ((drainingEnabled.setDev .faulted).setEngine .idleWait).admin.engine = .idleWait
      ∧ ((after (.vectorMask 2) drainingEnabled).link.masked[(drainingEnabled.rq 1).irq.vector] = true)
      ∧ ({ drainingEnabled.link with msiAllowed := false }).msiAllowed = false := by decide

/-- The last entry write of a closing RQ1 fails (R147, R151): RQ1 is ABSENT, and RQ0 has the RQ-FAILED and the ADMIN-DONE. -/
theorem test_entry_write_error_closes :
    (after (.entryWriteError 1) drainingEnabled).rq 1 = ReportQueue.absent
      ∧ ((after (.entryWriteError 1) drainingEnabled).rq 0).seq = (drainingEnabled.rq 0).seq + 2 := by decide

theorem witness_EntryWriteErrorFailsQueue_closing :
    drainingEnabled.writeOf (WritePurpose.isEntryOf 1) = some { addr := 0x1000, data := [], purpose := .entry 1 0 7 }
      ∧ (drainingEnabled.rq 1).closing = true ∧ (drainingEnabled.rq 1).inFlight ≤ 1 ∧ (drainingEnabled.rq 1).state = .active
      ∧ drainingEnabled.port.dev ≠ .resetting ∧ drainingEnabled.port.dev ≠ .faulted
      ∧ drainingEnabled.admin.engine = .executing hand 1 (.deleted .active OverflowCounts.zero)
      ∧ ((drainingEnabled.setRq 1 { queue16 with closing := true, inFlight := 1, state := .failed }).rq 1).state = .failed
      ∧ ((drainingEnabled.setDev .faulted).setEngine .idleWait).port.dev = .faulted
      ∧ ((drainingEnabled.setDev .faulted).setEngine .idleWait).admin.engine = .idleWait := by decide

theorem witness_EntryWriteErrorFailsQueue :
    (1 : QueueId) ≠ 0 ∧ (withEntry 1 queue16).port.dev ≠ .resetting ∧ (withEntry 1 queue16).port.dev ≠ .faulted
      ∧ ((withEntry 1 queue16).rq 1).closing = false
      ∧ (withEntry 1 queue16).writeOf (WritePurpose.isEntryOf 1) = some { addr := 0x1000, data := [], purpose := .entry 1 0 7 }
      ∧ ((withEntry 1 queue16).rq 1).state = .active
      ∧ ((withEntry 1 { queue16 with state := .failed }).rq 1).state = .failed
      ∧ ((withEntry 1 queue16).setDev .faulted).port.dev = .faulted
      ∧ (((withEntry 1 queue16).setRq 1 { queue16 with closing := true, inFlight := 2 }).rq 1).closing = true
      ∧ 2 ≤ (((withEntry 1 queue16).setRq 1 { queue16 with closing := true, inFlight := 2 }).rq 1).inFlight := by decide

/-- A queue whose delay timer is due at 1000. -/
def delayed : State := ready.setRq 1 { queue16 with irq := { queue16.irq with unsignalled := 1, timer := some 1000 } }

theorem witness_MessagesAndMasks :
    (delayed.rq 1).irq.timer = some 1000 ∧ (1000 : Time) ≤ delayed.time ∧ ready.link.marks[(2 : VectorId)] = false
      ∧ ready.link.msiAllowed = true ∧ (ready.link.marks.set 2 true)[2] = true := by decide

theorem witness_ArbiterGrants :
    (((ready.setTrack 3 emptyTrack).track 3).requester = true ∧ ((ready.setTrack 3 emptyTrack).track 3).urgent = true)
      ∧ waitingForCommand ready = true ∧ ready.lastGranted = 7
      ∧ ((ready.setTrack 0 stopped).track (ready.lastGranted + 1 + 0)).requester = true
      ∧ ((ready.setTrack 0 stopped).track 0).urgent = false
      ∧ waitingForCommand State.reset = false ∧ (State.reset.track 0).requester = false := by decide

theorem witness_ReadIssued :
    ready.port.dev ≠ .resetting ∧ grant (ready.setTrack 0 emptyTrack) = some (.track 0) ∧ grant ready = some .admin
      ∧ grant State.reset = none ∧ State.reset.port.dev ≠ .resetting := by decide

theorem witness_StepReadJoinsList :
    (reading stopped false).port.dev ≠ .resetting ∧ ((reading stopped false).readOf (.track 0)).isSome = true
      ∧ ((reading stopped false).track 0).read = some { start := 0, count := 1, stale := false }
      ∧ ((reading stopped false).track 0).state ≠ .empty
      ∧ ((reading stopped true).track 0).read = some { start := 0, count := 1, stale := true } := by decide

/-- A LEVEL that is early at 1000. -/
def levelAt2000 : StepRecord := stepRecord [1, 0, 1, 0, 7, 0, 0, 0, 0xD0, 0x07, 0, 0, 0, 0, 0, 0, 1, 0, 1, 0]

theorem witness_EmptyTrackTakesHead :
    ((reading emptyTrack false).readOf (.track 0)).isSome = true
      ∧ ((reading emptyTrack false).track 0).read = some { start := 0, count := 1, stale := false }
      ∧ ((reading emptyTrack false).track 0).state = .empty ∧ ((reading emptyTrack false).track 0).prefetch = []
      ∧ Timed levelAt2000
      ∧ checkRecord ((reading emptyTrack false).track 0).lanes.length ((reading emptyTrack false).track 0).loop.isSome levelAt2000 = none
      ∧ recDueMode levelAt2000 = some .abs ∧ (reading emptyTrack false).time < recDue levelAt2000
      ∧ (1 ≤ 1 ∧ 1 ≤ 8) ∧ (Timed levelRel50 ∧ recDueMode levelRel50 = some .rel ∧ checkRecord 2 false levelRel50 = none)
      ∧ (Timed waitHigh ∧ recDueMode waitHigh = some .now ∧ checkRecord 2 false waitHigh = none)
      ∧ ((reading emptyTrack false).track 0).refTime = 0 :=
  ⟨by decide, by decide, by decide, by decide, Or.inl (by decide), by decide, by decide, by decide, by decide,
   ⟨Or.inl (by decide), by decide, by decide⟩, ⟨Or.inr (Or.inr (Or.inl (by decide))), by decide, by decide⟩, by decide⟩

theorem witness_ReadErrorsAndTimeouts :
    ((reading { stopped with state := .safe } false).track 0).state = .safe ∧ ((reading stopped false).track 0).state = .stopped
      ∧ ((reading (dueTrack markAt1000) false).track 0).state = .due
      ∧ (reading stopped false).readOf (.track 0) = some { who := .track 0, issued := 900 }
      ∧ (900 : Time) + 1000000 ≤ ({ reading stopped false with time := 1000900 } : State).time
      ∧ ({ reading stopped false with time := 1000899 } : State).time < (900 : Time) + 1000000
      ∧ ready.readOf .admin = none := by decide

theorem witness_RetireWordCompletes :
    ((writingWord stopped 0 false).writeOf (WritePurpose.isRetireWordOf 0)).isSome = true
      ∧ ((writingWord stopped 0 false).track 0).retireWrite = some { value := 0, earlier := false }
      ∧ ((writingWord stopped 0 false).track 0).retire = 0 ∧ ((writingWord stopped 1 false).track 0).retire ≠ 1
      ∧ ((writingWord stopped 0 false).track 0).state = .stopped
      ∧ ((writingWord (dueTrack markAt1000) 0 false).track 0).state = .due
      ∧ ((writingWord { stopped with state := .safe } 0 false).track 0).state = .safe
      ∧ ((writingWord stopped 0 true).track 0).retireWrite = some { value := 0, earlier := true }
      ∧ ((writingWord stopped 0 true).track 0).retireAddr ≠ 0
      ∧ ((writingWord { stopped with state := .unbound } 0 true).track 0).state = .unbound := by decide

theorem witness_DecodeOfEncodedCommand : (∀ opcode, Command.unknown 0xFF = .unknown opcode → opcodeNamed opcode = false) := by
  rintro _ ⟨⟩
  decide

theorem witness_RecordIsItsRow :
    (∀ opcode, Command.fireTrip 1 = .unknown opcode → opcodeNamed opcode = false) ∧ (taking stopped).takes 0
      ∧ 0x11 < (0x12 : Byte).toNat
      ∧ (((taking stopped).setEngine .idleWait).readOf .admin).isSome = true
      ∧ ((taking stopped).setEngine .idleWait).admin.engine = .idleWait ∧ (taking stopped).port.dev ≠ .resetting
      ∧ ready.readOf .admin = none :=
  ⟨fun _ h => (by cases h), taking_takes _, by decide, by decide, rfl, by decide, by decide⟩

theorem witness_RecordIsItsRow_replies :
    commandEffect 1 (.fireTrip 2) (taking stopped).taken = (.answer .badTarget none, (taking stopped).taken)
      ∧ commandEffect 1 (.identify 0x800) (taking stopped).taken = (.write 0x800 identityRecord, (taking stopped).taken)
      ∧ commandEffect 1 (.deleteRq 1) (fetching (withEntry 1 queue16)).taken
        = (.drain 1 (.deleted .active OverflowCounts.zero),
           (fetching (withEntry 1 queue16)).taken.setRq 1 { queue16 with write := 1, inFlight := 1, closing := true }) := by decide

theorem witness_RefusedCommandChangesNothing :
    commandEffect 1 (.fireTrip 2) ready = (.answer .badTarget none, ready) ∧ Status.badTarget ≠ .ok := ⟨rfl, by decide⟩

theorem witness_AdminDoneHanded :
    (ready.port.dev ≠ .faulted ∧ 1 ≤ freeSlots (ready.rq 0)) ∧ freeSlots (waitSlot.rq 0) = 0 ∧ waitSlot.port.dev ≠ .faulted
      ∧ 1 ≤ freeSlots { queue16 with write := 15 } ∧ (ready.setDev .faulted).port.dev = .faulted := by decide

theorem witness_FatalErrorsFault :
    (taking (dueTrack markAt1000)).takes 0 ∧ ((taking (dueTrack markAt1000)).track 0).state ≠ .unbound
      ∧ ((taking (dueTrack markAt1000)).track 0).state ≠ .safe
      ∧ (taking stopped).link.masked[((taking stopped).rq 0).irq.vector] = false ∧ (taking stopped).link.msiAllowed = true
      ∧ ((withEntry 0 queue16).writeOf (WritePurpose.isEntryOf 0)).isSome = true ∧ ((withEntry 0 queue16).rq 0).closing = false
      ∧ (withEntry 0 queue16).live
      ∧ (((withEntry 0 queue16).setDev .faulted).writeOf (WritePurpose.isEntryOf 0)).isSome = true :=
  ⟨taking_takes _, by decide, by decide, by decide, by decide, by decide, by decide, Or.inl rfl, by decide⟩

/-- A result buffer write in flight with its command in hand. -/
def writingBuffer : State := (ready.setEngine (.writing hand)).issueWrite { addr := 0x800, data := [], purpose := .buffer }

theorem witness_BufferCommands :
    (taking stopped).takes 0 ∧ 8 ∣ (0x800 : Addr).toNat ∧ (7 : Byte).toNat = (7 : TrackId).val
      ∧ (writingBuffer.writeOf WritePurpose.isBuffer).isSome = true ∧ writingBuffer.port.dev ≠ .resetting
      ∧ writingBuffer.admin.engine = .writing hand ∧ (writingBuffer.setEngine .idleWait).admin.engine = .idleWait :=
  ⟨taking_takes _, by decide, by decide, by decide, by decide, rfl, rfl⟩

theorem witness_BufferCommands_refusals :
    (taking stopped).takes 0 ∧ ¬8 ∣ (0x804 : Addr).toNat ∧ (7 : Byte).toNat < 8 ∧ 8 ≤ (8 : Byte).toNat :=
  ⟨taking_takes _, by decide, by decide, by decide⟩

/-- SET-LINE of L47 that keeps its mode and gives a window. -/
def keepLine (window : BitVec 16) : SetLineParams :=
  { line := 47, mode := 0, staticLevel := 0, safeMode := 3, window := window, captureMode := 0, captureRq := 7, interval := false }

/-- L47 PENDING in a READY device. -/
def pendingState : State := fetching (ready.setLine 47 pendingLine)

theorem witness_SetLineResult :
    pendingState.takes 0 ∧ (keepLine 5).line.toNat = (47 : LineId).val ∧ safeMode? (keepLine 5).safeMode = some .high
      ∧ captureMode? (keepLine 5).captureMode = some .none ∧ (keepLine 5).captureRq.toNat = (7 : QueueId).val
      ∧ (keepLine 5).mode = 0 ∧ (pendingState.line 47).mode = .input ∧ (pendingState.line 47).window ≠ (keepLine 5).window
      ∧ (pendingState.line 47).raw ≠ (pendingState.line 47).accepted ∧ (keepLine 5).window ≠ 0 ∧ (keepLine 0).window = 0
      ∧ (∀ u, (pendingState.trip u).state = .armed → (pendingState.trip u).source ≠ 47)
      ∧ ∀ k, (pendingState.track k).state ≠ .inputWait :=
  ⟨⟨rfl, rfl, rfl⟩, by decide, by decide, by decide, by decide, by decide, by decide, by decide, by decide, by decide, by decide,
   by decide, by decide⟩

/-- SET-LINE of L0, a lane, and of L5, an OFF line, with fields at their last known values and one past them. -/
theorem witness_SetLineAndBindChecks_line :
    48 ≤ (48 : Byte).toNat ∧ (47 : Byte).toNat = (47 : LineId).val ∧ 3 < (4 : Byte).toNat ∧ ¬3 < (3 : Byte).toNat
      ∧ (ready.line 0).mode = .track ∧ (ready.line 5).mode ≠ .track ∧ (7 : Byte).toNat = (7 : QueueId).val
      ∧ (ready.rq 7).state ≠ .active ∧ (ready.rq 1).state = .active := by decide

/-- BIND-TRACK of T1 with 16 lanes from L10 on. -/
def bind16 : BindParams :=
  { track := 1, laneCount := 16, latePolicy := 3, rq := 1, tolerance := 0, holdLimit := 0, pattern := 0xAAAA, sqSize := 4096,
    sqBase := 0x20, retireAddr := 4, lanes := Vector.ofFn fun i => BitVec.ofNat 8 (i.val + 10) }

/-- The lines that it lists. -/
def lanes16 : List LineId := [10, 11, 12, 13, 14, 15, 16, 17, 18, 19, 20, 21, 22, 23, 24, 25]

theorem witness_SetLineAndBindChecks_bind :
    8 ≤ (8 : Byte).toNat ∧ ((ready.setTrack 0 stopped).track 0).state ≠ .unbound ∧ (ready.track 1).state = .unbound
      ∧ (1 ≤ bind16.laneCount.toNat ∧ bind16.laneCount.toNat ≤ 16
        ∧ (∀ b ∈ bind16.lanes.toList.take bind16.laneCount.toNat, b.toNat < 48)
        ∧ (bind16.lanes.toList.take bind16.laneCount.toNat).Nodup ∧ PowerBetween 4 4096 bind16.sqSize.toNat
        ∧ 32 ∣ bind16.sqBase.toNat ∧ 4 ∣ bind16.retireAddr.toNat ∧ bind16.latePolicy = 3 ∧ bind16.rq.toNat < 8)
      ∧ ¬1 ≤ { bind16 with laneCount := 0 }.laneCount.toNat ∧ (ready.rq 2).state ≠ .active
      ∧ (∀ l : LineId, BitVec.ofNat 8 l.val ∈ bind16.lanes.toList.take bind16.laneCount.toNat → (ready.line l).mode ≠ .track)
      ∧ BitVec.ofNat 8 (10 : LineId).val ∈ bind16.lanes.toList.take bind16.laneCount.toNat :=
  ⟨by decide, by decide, by decide,
   ⟨by decide, by decide, by decide, by decide, ⟨by decide, by decide, 12, rfl⟩, by decide, by decide, by decide, by decide⟩,
   by decide, by decide, by decide, by decide⟩

theorem witness_SetStaticResult :
    (taking stopped).takes 0 ∧ ((1 : BitVec 48).getLsbD (0 : LineId).val = true ∧ ((taking stopped).line 0).mode ≠ .static)
      ∧ ∀ l : LineId, (0x800000000000 : BitVec 48).getLsbD l.val = true →
          ((fetching (ready.setLine 47 { Line.powerOn with mode := .static, drive := .low })).line l).mode = .static :=
  ⟨taking_takes _, by decide, by decide⟩

theorem witness_RawChangeTaken :
    (((ready.setLine 5 { inputLine with window := 0 }).line 5).mode ≠ .off
        ∧ ((ready.setLine 5 { inputLine with window := 0 }).line 5).raw ≠ .high
        ∧ ((ready.setLine 5 { inputLine with window := 0 }).line 5).pendingStart = none
        ∧ ((ready.setLine 5 { inputLine with window := 0 }).line 5).windowTimer = none
        ∧ ready.sampler.changed[(5 : LineId)] = false ∧ inputLine.drive = ready.sampler.drives[(5 : LineId)]
        ∧ ((ready.setLine 5 { inputLine with captureMode := .both }).line 5).captureMode ≠ .none)
      ∧ inputLine.sound ∧ inputLine.raw ≠ .high ∧ inputLine.window ≠ 0 ∧ inputLine.pendingStart = none
      ∧ pendingLine.sound ∧ pendingLine.raw ≠ .low ∧ pendingLine.pendingStart ≠ none := by
  refine ⟨by decide, ?_, by decide, by decide, by decide, ?_, by decide, by decide⟩
  · exact ⟨by decide, by decide, by decide, by decide, by decide, fun _ _ h => absent_is_not rfl h, by decide⟩
  · refine ⟨by decide, by decide, by decide, by decide, by decide, fun _ start h => ?_, by decide⟩
    cases h
    decide

theorem witness_WindowExpiryAndStillSample :
    pendingLine.pendingStart = some 900 ∧ pendingLine.windowTimer = some 1100
      ∧ (1100 : Time) ≤ ({ ready.setLine 5 pendingLine with time := 1100 } : State).time
      ∧ (ready.line 5).mode = .off ∧ ((ready.setLine 5 pendingLine).line 5).raw = .high := by decide

/-- L0 as lane of a track: driven LOW in this tick, its pin HIGH as the tick began. -/
def claimed : State := { ready with sampler := { ready.sampler with pins := ready.sampler.pins.set 0 .high } }

/-- A raw change is taken when the driver opposes the level or has not moved in this tick; the readback of the claim is not. -/
theorem witness_WindowExpiryAndStillSample_samples :
    claimed.sampleTaken 0 .high ∧ claimed.sampleTaken 5 .high ∧ ¬claimed.sampleTaken 0 .low
      ∧ ¬(after (.rawChange 5 .high) (ready.setLine 5 inputLine)).sampleTaken 5 .low :=
  ⟨⟨by decide, by decide⟩, ⟨by decide, by decide⟩, fun h => absurd h.2 (by decide), fun h => absurd h.1 (by decide)⟩

/-- L5 captures rising edges for RQ1. -/
def capturing (q : ReportQueue) : State := (ready.setRq 1 q).setLine 5 { inputLine with captureMode := .rise, captureRq := 1 }

theorem witness_CaptureStage :
    ((capturing queue16).line 5).captureMode ≠ .none
      ∧ ((capturing queue16).line 5).captureMode = .rise
      ∧ (capturing queue16).decision ((capturing queue16).line 5).captureRq = .posted
      ∧ (capturing queueFull).decision ((capturing queueFull).line 5).captureRq ≠ .posted
      ∧ ¬(((capturing queue16).line 5).captureMode = .both
        ∨ (((capturing queue16).line 5).captureMode = .rise ∧ Level.low = .high)
        ∨ (((capturing queue16).line 5).captureMode = .fall ∧ Level.low = .low)) := by decide

theorem witness_BindAndUnbindTrack :
    (taking stopped).takes 0 ∧ bind16.track.toNat = (1 : TrackId).val ∧ ((taking stopped).track 1).state = .unbound
      ∧ 1 ≤ bind16.laneCount.toNat ∧ bind16.laneCount.toNat ≤ 16
      ∧ lanes16.map (·.val) = (bind16.lanes.toList.take bind16.laneCount.toNat).map (·.toNat) ∧ lanes16.Nodup
      ∧ PowerBetween 4 4096 bind16.sqSize.toNat ∧ 32 ∣ bind16.sqBase.toNat ∧ 4 ∣ bind16.retireAddr.toNat
      ∧ latePolicy? bind16.latePolicy = some .fault ∧ bind16.rq.toNat = (1 : QueueId).val ∧ ((taking stopped).rq 1).state = .active
      ∧ (∀ l ∈ lanes16, ((taking stopped).line l).mode ≠ .track) ∧ ((taking stopped).track 0).state = .stopped :=
  ⟨taking_takes _, by decide, by decide, by decide, by decide, by decide, by decide, ⟨by decide, by decide, 12, rfl⟩, by decide,
   by decide, by decide, by decide, by decide, by decide, by decide⟩

theorem witness_BindAndUnbindTrack_refusals :
    8 ≤ (8 : Byte).toNat ∧ ((taking emptyTrack).track 0).state ≠ .stopped ∧ ((taking emptyTrack).track 0).state ≠ .safe := by decide

theorem witness_StartTracksResult :
    (taking stopped).takes 0 ∧ (1 : Byte) ≠ 0 ∧ (taking stopped).time < 1001
      ∧ (∀ k : TrackId, (1 : Byte).getLsbD k.val = true → ((taking stopped).track k).state = .stopped
        ∧ ∀ u, ((taking stopped).trip u).state = .fired → ((taking stopped).trip u).mask.getLsbD k.val = false)
      ∧ (1000 : Time) = (taking stopped).time :=
  ⟨taking_takes _, by decide, by decide, by decide, by decide⟩

/-- T0 STOPPED under a FIRED unit that names it. -/
def heldTrack (c : Track) : State := (taking c).setTrip 0 { Trip.afterReset with state := .fired, mask := 1 }

/-- T0 in SAFE by a fire of TRIP0 at this device time, with T1 as given. -/
def racedTrack (c : Track) : State :=
  ((taking { stopped with state := .safe, safeCause := some (.trip 0), safeFrom := some .notStarted }).setTrack 1 c).setTrip 0
    { Trip.afterReset with state := .fired, mask := 1, lastFire := some { cause := .edge, time := 1000, moved := 1 } }

theorem witness_StartTracksChecks_race :
    ((racedTrack stopped).track 0).state = .safe ∧ ((racedTrack stopped).trip 0).state = .fired
      ∧ ((racedTrack stopped).trip 0).mask.getLsbD (0 : TrackId).val = true
      ∧ ((racedTrack stopped).trip 0).lastFire = some { cause := .edge, time := (racedTrack stopped).time, moved := 1 }
      ∧ (1 : Byte).getLsbD (0 : TrackId).val = true ∧ ((racedTrack stopped).track 1).state = .stopped := by decide

/-- R127: a START-TRACKS of a track that a fire of the same device time has just moved answers TRIP-ACTIVE; a named track that no
fire has moved and that is not STOPPED answers STATE (R64). -/
theorem test_start_tracks_races_fire :
    (commandEffect 1 (.startTracks 3 1 0) (racedTrack stopped)).1 = .answer .tripActive none
      ∧ (commandEffect 1 (.startTracks 3 1 0) (racedTrack emptyTrack)).1 = .answer .state none := by decide

/-- Section 11.9: a START of a track that an earlier fire has moved answers STATE. -/
theorem test_start_tracks_after_fire :
    (commandEffect 1 (.startTracks 1 1 0) { racedTrack stopped with time := 1001 }).1 = .answer .state none := by decide

theorem witness_StartTracksChecks :
    (0 : Byte) = 0 ∧ ((3 : Byte) ≠ 1 ∧ (3 : Byte) ≠ 2)
      ∧ ((1 : Byte).getLsbD (0 : TrackId).val = true ∧ ((taking emptyTrack).track 0).state ≠ .stopped)
      ∧ (((heldTrack stopped).trip 0).state = .fired ∧ ((heldTrack stopped).trip 0).mask.getLsbD (0 : TrackId).val = true)
      ∧ (999 : Time) < (taking stopped).time ∧ ¬(1000 : Time) < (taking stopped).time := by decide

theorem witness_StopTrackResult :
    (taking (dueTrack markAt1000)).takes 0 ∧ (0 : Byte).toNat = (0 : TrackId).val
      ∧ ((taking (dueTrack markAt1000)).track 0).state ≠ .unbound ∧ ((taking (dueTrack markAt1000)).track 0).state ≠ .safe
      ∧ stopLines? 2 = some .park ∧ stopLines? 1 = some .hold ∧ ((taking stopped).track 0).state = .stopped
      ∧ ((taking (dueTrack markAt1000)).track 0).state = .due :=
  ⟨taking_takes _, by decide, by decide, by decide, by decide, by decide, by decide, by decide⟩

theorem witness_StopTrackResult_refusals :
    8 ≤ (8 : Byte).toNat ∧ ((taking { stopped with state := .safe }).track 0).state = .safe ∧ ((taking stopped).track 1).state = .unbound
      ∧ 2 < (3 : Byte).toNat
      ∧ (stopped.retire ≠ stopped.post ∧ ({ stopped with retireAddr := 0x80 } : Track).retireAddr ≠ 0 ∧ stopped.retireWrite = none) := by
  decide

theorem witness_PauseTrackResult :
    (taking emptyTrack).takes 0 ∧ ((taking emptyTrack).track 0).state = .empty ∧ ((taking (dueTrack markAt1000)).track 0).state = .due
      ∧ ((taking (waitTrack waitHigh)).track 0).state = .inputWait ∧ ((taking stopped).track 0).state = .stopped :=
  ⟨taking_takes _, by decide, by decide, by decide, by decide⟩

/-- T0 PAUSED in DUE on a REL step whose due time was 1020. -/
def pausedTrack : Track :=
  { stopped with state := .paused, pausedFrom := some .due, current := some (current levelRel50 1020), fetch := 1 }

/-- T0 SAFE from STOPPED. -/
def safeTrack (cause : SafeCause) : Track := { stopped with state := .safe, safeCause := some cause, safeFrom := some .notStarted }

theorem witness_ResumeTrackResult :
    (taking pausedTrack).takes 0 ∧ ((taking pausedTrack).track 0).state = .paused
      ∧ ((taking pausedTrack).track 0).pausedFrom = some .due
      ∧ ((taking pausedTrack).track 0).current = some (current levelRel50 1020) ∧ (current levelRel50 1020).due = some 1020
      ∧ (taking pausedTrack).time < 1020 ∧ recDueMode levelRel50 = some .rel
      ∧ (taking pausedTrack).time < (taking pausedTrack).time + recDue levelRel50
      ∧ ((taking (safeTrack .late)).track 0).state = .safe ∧ ((taking (safeTrack .late)).track 0).safeFrom = some .notStarted
      ∧ (∀ u, ((taking (safeTrack .late)).trip u).state = .fired → ((taking (safeTrack .late)).trip u).mask.getLsbD 0 = false)
      ∧ (∀ sub, ((taking (safeTrack .late)).track 0).safeCause ≠ some (.badStep sub)) :=
  ⟨taking_takes _, by decide, by decide, by decide, by decide, by decide, by decide, by decide, by decide, by decide, by decide,
   fun sub => by cases sub <;> decide⟩

/-- T0 PAUSED or SAFE from a started flow with this current step. -/
def haltedTrack (state : TrackState) (from' : PausedFrom) (step : Option CurrentStep) : Track :=
  { stopped with state := state, pausedFrom := some from', current := step, fetch := 1
                 safeCause := if state = .safe then some .late else none, safeFrom := if state = .safe then some .started else none }

theorem witness_ResumeTrackResult_continue :
    (((taking (haltedTrack .paused .inputWait (some (begun waitHigh)))).track 0).pausedFrom = some .inputWait
        ∧ ((taking (haltedTrack .paused .inputWait (some (begun waitHigh)))).track 0).current = some (begun waitHigh))
      ∧ (((taking (haltedTrack .paused .empty none)).track 0).pausedFrom = some .empty
        ∧ ((taking (haltedTrack .paused .empty none)).track 0).current = none)
      ∧ (((taking (haltedTrack .safe .due (some (current levelRel50 1020)))).track 0).state = .safe
        ∧ ((taking (haltedTrack .safe .due (some (current levelRel50 1020)))).track 0).safeFrom = some .started
        ∧ ((taking (haltedTrack .safe .due (some (current levelRel50 1020)))).track 0).safeCause = some .late
        ∧ (current levelRel50 1020).waitStart = none ∧ (begun waitHigh).waitStart ≠ none)
      ∧ ∀ u, ((taking (haltedTrack .safe .due none)).trip u).state ≠ .fired := by decide

theorem witness_ResumeTrackResult_checks :
    8 ≤ (8 : Byte).toNat ∧ ((taking stopped).track 0).state = .stopped ∧ ((3 : Byte) ≠ 1 ∧ (3 : Byte) ≠ 2)
      ∧ (((heldTrack (safeTrack .late)).trip 0).state = .fired ∧ ((heldTrack (safeTrack .late)).trip 0).mask.getLsbD 0 = true)
      ∧ ((taking (safeTrack (.badStep .badDue))).track 0).safeCause = some (.badStep .badDue) := by decide

theorem witness_RecordChecks :
    (stepRecord [0])[0].toNat = 0 ∧ (stepRecord [7])[0].toNat = 7 ∧ (stepRecord [1, 0, 0])[2].toNat = 0
      ∧ (stepRecord [1, 0, 4])[2].toNat = 4 ∧ (le16 levelAt1000[16] levelAt1000[17]).getLsbD 0 = true
      ∧ waitHigh[16].toNat = 5 ∧ loopTwice[0].toNat = 4 ∧ nextRecord[0].toNat = 5 ∧ endAt1000[0].toNat = 6 := by decide

/-- A MARK with due mode 0 at the head of the list. -/
theorem witness_RecordChecks_head :
    ({ emptyTrack with prefetch := [{ record := stepRecord [2], pos := 0 }] } : Track).prefetch = [{ record := stepRecord [2], pos := 0 }]
      ∧ checkRecord emptyTrack.lanes.length emptyTrack.loop.isSome (stepRecord [2]) = some .badDue := by decide

/-- T0 ARMED for 1000 with an empty list. -/
def armedTrack : Track := { stopped with state := .armed, startTime := some 1000 }

theorem witness_StartTimeStartsTrack :
    ((ready.setTrack 0 armedTrack).track 0).state = .armed ∧ ((ready.setTrack 0 armedTrack).track 0).startTime = some 1000
      ∧ (1000 : Time) ≤ (ready.setTrack 0 armedTrack).time ∧ ((ready.setTrack 0 armedTrack).track 0).prefetch = []
      ∧ ((ready.setTrack 0 armedTrack).track 0).current = none
      ∧ ({ ready with time := 999 } : State).time < 1000
      ∧ ({ armedTrack with prefetch := [{ record := levelAt1000, pos := 0 }] } : Track).prefetch ≠ [] := by decide

/-- T0 DUE for 1000 at 1000. -/
def dueState (r : StepRecord) : State := ready.setTrack 0 (dueTrack r)

theorem witness_DueLevelTakesEffect :
    ((dueState levelAt1000).track 0).state = .due
      ∧ ((dueState levelAt1000).track 0).current = some (current levelAt1000 1000)
      ∧ (current levelAt1000 1000).due = some 1000 ∧ ((dueState levelAt1000).track 0).dueTimer = some 1000
      ∧ (1000 : Time) ≤ (dueState levelAt1000).time ∧ recKind levelAt1000 = some .level ∧ recNotify levelAt1000 = false
      ∧ ((dueState levelAt1000).track 0).loop = none ∧ ((dueState levelAt1000).track 0).stopReq = none
      ∧ ((dueState levelAt1000).track 0).prefetch = [] ∧ ((dueState levelAt1000).track 0).retireAddr = 0
      ∧ ((dueState levelAt1000).line 0).owner = some { track := 0, lane := 0 } ∧ ((dueState levelAt1000).line 5).owner = none := by
  decide

theorem witness_DueMarkAndEndTakeEffect :
    ((dueState markAt1000).track 0).current = some (current markAt1000 1000) ∧ recKind markAt1000 = some .mark
      ∧ recNotify markAt1000 = true ∧ ((dueState markAt1000).track 0).dueTimer = some 1000
      ∧ ((dueState endAt1000).track 0).current = some (current endAt1000 1000) ∧ recKind endAt1000 = some .finish
      ∧ recNotify endAt1000 = false ∧ ((dueState endAt1000).track 0).stopReq = none
      ∧ ((dueState endAt1000).track 0).retireAddr = 0 := by decide

/-- A step that retires inside a loop, with a retire word, and before a requested stop. -/
theorem witness_DueMarkAndEndTakeEffect_retires :
    ({ dueTrack markAt1000 with loop := some { start := 1, pos := 0, remaining := 2, pass := 1 } } : Track).loop ≠ none
      ∧ ((dueTrack markAt1000).retire ≠ (0 + 1) % (dueTrack markAt1000).sqSize
        ∧ ({ dueTrack markAt1000 with retireAddr := 0x80 } : Track).retireAddr ≠ 0 ∧ (dueTrack markAt1000).retireWrite = none)
      ∧ ({ dueTrack markAt1000 with retireWrite := some { value := 7, earlier := true } } : Track).retireWrite ≠ none
      ∧ ({ dueTrack markAt1000 with stopReq := some .park } : Track).stopReq = some .park
      ∧ recNotify (stepRecord [6, 1, 1]) = true ∧ recKind (stepRecord [6, 1, 1]) = some .finish := by decide

/-- T0 in INPUT-WAIT at 1050, the moment of its timeout. -/
def waitState (r : StepRecord) : State := { ready.setTrack 0 (waitTrack r) with time := 1050 }

theorem witness_WaitsEnd :
    ((waitState waitHigh).track 0).state = .inputWait ∧ ((waitState waitHigh).track 0).current = some (begun waitHigh)
      ∧ (begun waitHigh).waitStart = some 950 ∧ ((waitState waitHigh).track 0).timeoutTimer = some 1050
      ∧ (1050 : Time) ≤ (waitState waitHigh).time ∧ recOnTimeout waitHigh = some .goOn ∧ recOnTimeout waitFault = some .fault
      ∧ recNotify waitHigh = false ∧ ((waitState waitHigh).track 0).prefetch = []
      ∧ ((waitState waitFault).track 0).current = some (begun waitFault)
      ∧ ((ready.setTrack 0 emptyTrack).track 0).holdTimer = some 1000 ∧ recLine waitHigh = some 5 ∧ recCond waitHigh = some .high := by
  decide

/-- L5 at LOW does not meet HIGH at the begin of the wait, L5 at HIGH does, and the RISE of its acceptance to HIGH does. -/
theorem witness_WaitsEnd_begin :
    recKind waitHigh = some .wait ∧ (ready.line 5).accepted = .low ∧ ((ready.setLine 5 { pendingLine with accepted := .high }).line 5).accepted = .high
      ∧ recTimeout waitHigh ≠ 0 ∧ recTimeout (stepRecord [3]) = 0 ∧ (emptyTrack.state ≠ .inputWait) ∧ (4 : LineId) ≠ 5 := by decide

/-- T0 with one record at the head of its list, perhaps in a loop. -/
def headTrack (r : StepRecord) (loop : Option LoopCtx) : Track :=
  { stopped with state := .empty, prefetch := [{ record := r, pos := 1 }], fetch := 2, loop := loop }

/-- A loop at position 0 with some passes remaining. -/
def loopOf (remaining : BitVec 16) : LoopCtx := { start := 1, pos := 0, remaining := remaining, pass := 1 }

theorem witness_JudgmentAndLoops :
    (999 : Time).toNat < (1000 : Time).toNat ∧ ¬(1000 : Time).toNat + stopped.tolerance.toNat < (1010 : Time).toNat
      ∧ (1000 : Time).toNat + stopped.tolerance.toNat < (1011 : Time).toNat ∧ stopped.latePolicy = .skip
      ∧ (headTrack loopTwice none).prefetch = [{ record := loopTwice, pos := 1 }] ∧ (headTrack loopTwice none).retireAddr = 0
      ∧ checkRecord 2 (headTrack loopTwice none).loop.isSome loopTwice = none ∧ recKind loopTwice = some .loop
      ∧ checkRecord 2 (headTrack nextRecord (some (loopOf 2))).loop.isSome nextRecord = none ∧ recKind nextRecord = some .next
      ∧ 1 < (loopOf 2).remaining.toNat ∧ (loopOf 1).remaining.toNat ≤ 1 := by decide

theorem witness_JudgmentAndLoops_chain :
    (headTrack levelRel50 (some (loopOf 2))).prefetch = [{ record := levelRel50, pos := 1 }]
      ∧ checkRecord 2 (headTrack levelRel50 (some (loopOf 2))).loop.isSome levelRel50 = none ∧ recDueMode levelRel50 = some .rel
      ∧ recKind levelRel50 = some .level ∧ recKind endAt1000 = some .finish ∧ recKind levelAt1000 ≠ some .finish
      ∧ ((headTrack nextRecord (some (loopOf 1))).retire ≠ (1 + 1) % (headTrack nextRecord (some (loopOf 1))).sqSize
        ∧ ({ headTrack nextRecord (some (loopOf 1)) with retireAddr := 0x80 } : Track).retireAddr ≠ 0)
      ∧ ({ stopped with latePolicy := .apply } : Track).latePolicy = .apply
      ∧ ({ stopped with latePolicy := .fault } : Track).latePolicy = .fault := by decide

theorem witness_SetTripResult :
    (taking stopped).takes 0 ∧ (1 : Byte).toNat = (1 : UnitId).val ∧ (47 : Byte).toNat = (47 : LineId).val
      ∧ tripCond? 4 = some .low ∧ tripCond? 1 = some .rise ∧ ((taking stopped).trip 1).state ≠ .fired
      ∧ ((taking stopped).line 47).accepted = .low :=
  ⟨taking_takes _, by decide, by decide, by decide, by decide, by decide, by decide⟩

theorem witness_SetTripResult_refusals :
    2 ≤ (2 : Byte).toNat ∧ 48 ≤ (48 : Byte).toNat ∧ 4 < (5 : Byte).toNat ∧ 1 < (2 : Byte).toNat
      ∧ ((heldTrack stopped).trip 0).state = .fired := by decide

/-- Unit 1 with a mask of T0 alone. -/
def armedUnit (c : Track) : State := (taking c).setTrip 1 { Trip.afterReset with state := .armed, mask := 1, condition := .low }

/-- Unit 1 FIRED by the host at 990. -/
def firedUnit (cond : TripCond) : State :=
  (taking stopped).setTrip 1
    { Trip.afterReset with state := .fired, condition := cond, lastFire := some { cause := .host, time := 990, moved := 0 } }

theorem witness_FireAndClearTrip :
    (armedUnit stopped).takes 0 ∧ ((armedUnit stopped).trip 1).state ≠ .fired
      ∧ (∀ k : TrackId, ((armedUnit stopped).trip 1).mask.getLsbD k.val = true → k = 0)
      ∧ ((armedUnit stopped).track 0).state = .stopped ∧ ((armedUnit (safeTrack .late)).track 0).state = .safe
      ∧ (firedUnit .low).takes 0 ∧ ((firedUnit .low).trip 1).state = .fired
      ∧ ((firedUnit .low).line ((firedUnit .low).trip 1).source).accepted = .low
      ∧ ((firedUnit .rise).trip 1).condition = .rise
      ∧ ((firedUnit .rise).trip 1).lastFire = some { cause := .host, time := 990, moved := 0 } :=
  ⟨⟨rfl, rfl, rfl⟩, by decide, by decide, by decide, by decide, ⟨rfl, rfl, rfl⟩, by decide, by decide, by decide, by decide⟩

/-- A fire over T0 and T1, both bound, and an acceptance that meets an edge and a level condition. -/
theorem witness_FireAndClearTrip_general :
    (∀ k : TrackId, k = 0 ∨ k = 1 → (3 : BitVec 8).getLsbD k.val = true
        ∧ (((taking stopped).setTrack 1 emptyTrack).track k).state ≠ .unbound ∧ (((taking stopped).setTrack 1 emptyTrack).track k).state ≠ .safe)
      ∧ ((armedUnit stopped).trip 1).state = .armed ∧ ((armedUnit stopped).trip 1).source = 0 ∧ ((armedUnit stopped).trip 1).condition = .low
      ∧ ({ (armedUnit stopped).trip 1 with condition := .fall } : Trip).condition = .fall ∧ ((armedUnit stopped).trip 0).state ≠ .armed
      ∧ (5 : LineId) ≠ 0 ∧ 2 ≤ (2 : Byte).toNat := by decide

/-- CREATE-RQ of RQ7 with 4096 slots. -/
def create7 : CreateRqParams := { queue := 7, vector := 7, threshold := 255, enable := 1, delay := 0xFFFF, size := 4096, base := 0x20 }

/-- A closing RQ1 with its last entry write in flight and the DELETE-RQ that waits for it. -/
def draining : State :=
  (withEntry 1 queue16).setRq 1 { queue16 with closing := true, inFlight := 1, irq := { queue16.irq with enable := false } }
    |>.setEngine (.executing hand 1 (.deleted .active OverflowCounts.zero))

theorem witness_CreateAndDeleteRq :
    (taking stopped).takes 0 ∧ (7 : QueueId) ≠ 0 ∧ create7.queue.toNat = (7 : QueueId).val ∧ ((taking stopped).rq 7).state = .absent
      ∧ PowerBetween 16 4096 create7.size.toNat ∧ 32 ∣ create7.base.toNat ∧ create7.vector.toNat = (7 : VectorId).val
      ∧ create7.threshold ≠ 0 ∧ create7.enable = 1
      ∧ (fetching ready).takes 0 ∧ ((fetching ready).rq 1).state ≠ .absent
      ∧ (∀ k, ((fetching ready).track k).state ≠ .unbound → ((fetching ready).track k).rq ≠ 1)
      ∧ (∀ l, ((fetching ready).line l).captureMode ≠ .none → ((fetching ready).line l).captureRq ≠ 1)
      ∧ ((fetching ready).rq 1).inFlight = 0 :=
  ⟨taking_takes _, by decide, by decide, by decide, ⟨by decide, by decide, 12, rfl⟩, by decide, by decide, by decide, by decide,
   ⟨rfl, rfl, rfl⟩, by decide, by decide, by decide, by decide⟩

theorem witness_CreateAndDeleteRq_drains :
    draining.port.dev = .ready ∧ (draining.writeOf (WritePurpose.isEntryOf 1)).isSome = true ∧ (draining.rq 1).state ≠ .absent
      ∧ (draining.rq 1).closing = true ∧ (draining.rq 1).inFlight = 1 ∧ (draining.rq 1).irq.enable = false
      ∧ draining.admin.engine = .executing hand 1 (.deleted .active OverflowCounts.zero) := by decide

theorem witness_CreateAndDeleteRq_refusals :
    8 ≤ (8 : Byte).toNat ∧ ((taking stopped).rq 1).state ≠ .absent ∧ ((taking stopped).rq 7).state = .absent
      ∧ ¬32 ∣ ({ create7 with base := 0x10 } : CreateRqParams).base.toNat
      ∧ (((taking stopped).track 0).state ≠ .unbound ∧ ((taking stopped).track 0).rq = 1)
      ∧ (((capturing queue16).line 5).captureMode ≠ .none ∧ ((capturing queue16).line 5).captureRq = 1)
      ∧ drainingEnabled.port.dev = .ready := by decide

theorem witness_SetRqInterruptResult_refusals :
    8 ≤ (8 : Byte).toNat ∧ ((taking stopped).rq 7).state = .absent ∧ ((taking stopped).rq 1).state ≠ .absent ∧ 1 < (2 : Byte).toNat := by
  decide

theorem witness_SetRqInterruptResult :
    (taking stopped).takes 0 ∧ (1 : Byte).toNat = (1 : QueueId).val ∧ ((taking stopped).rq 1).state ≠ .absent
      ∧ (7 : Byte).toNat = (7 : VectorId).val ∧ (1 : Byte) ≠ 0 ∧ ((taking stopped).rq 1).irq.enable = true
      ∧ ((taking stopped).rq 1).irq.unsignalled = 0 ∧ outstanding ((taking stopped).rq 1) - ((taking stopped).rq 1).inFlight = 0
      ∧ outstanding { queue16 with write := 1 } - queue16.inFlight ≠ 0
      ∧ { queue16.irq with unsignalled := 1 }.unsignalled ≠ 0 :=
  ⟨taking_takes _, by decide, by decide, by decide, by decide, by decide, by decide, by decide, by decide, by decide⟩

/-! ### A state in which every invariant says something -/

/-- T0 DUE with both its lanes, unit 0 FIRED over T1, RQ0 full with an ADMIN-DONE waiting, and the due event at the front. -/
def busy : State :=
  { (waitSlot.setTrack 0 (dueTrack levelAt1000)).setTrip 0 { Trip.afterReset with state := .fired, mask := 2 } with
    pending := [.dueTimerExpiry 0] }

theorem busy_step : ∃ t, step busy = .next t := ⟨_, rfl⟩

theorem witness_StepKeepsQueues : busy.queuesSound := by
  intro q
  have h : busy.rq q = queueFull ∨ busy.rq q = queue16 ∨ busy.rq q = ReportQueue.absent := by revert q; decide
  rcases h with h | h | h <;> rw [h]
  · exact ⟨fun h => absurd h (by decide), fun _ => ⟨⟨by decide, by decide, 4, rfl⟩, by decide, by decide, by decide, by decide,
      fun h => absurd h (by decide), ⟨by decide, by decide, by decide, by decide⟩⟩⟩
  · exact ⟨fun h => absurd h (by decide), fun _ => ⟨⟨by decide, by decide, 4, rfl⟩, by decide, by decide, by decide, by decide,
      fun h => absurd h (by decide), ⟨by decide, by decide, by decide, by decide⟩⟩⟩
  · exact ⟨fun _ => rfl, fun h => absurd rfl h⟩

theorem witness_StepKeepsLinesAndLanes_lines : busy.linesSound := by
  intro l
  have h : busy.line l = laneLine 0 ∨ busy.line l = laneLine 1 ∨ busy.line l = Line.powerOn := by revert l; decide
  rcases h with h | h | h <;> rw [h]
  · exact ⟨by decide, by decide, by decide, by decide, by decide, fun _ _ h => absent_is_not rfl h,
      by decide⟩
  · exact ⟨by decide, by decide, by decide, by decide, by decide, fun _ _ h => absent_is_not rfl h,
      by decide⟩
  · exact ⟨by decide, by decide, by decide, by decide, by decide, fun h => absurd rfl h, by decide⟩

theorem witness_StepKeepsLinesAndLanes_lanes : busy.lanesSound := by
  refine ⟨by decide, by decide, fun l o => ?_⟩
  obtain ⟨t, n⟩ := o
  revert l t n
  decide

theorem witness_StepKeepsTracks_timers : busy.timersSound := by
  intro k
  have h : busy.track k = dueTrack levelAt1000 ∨ busy.track k = Track.powerOn := by revert k; decide
  rcases h with h | h <;> rw [h]
  · refine ⟨by decide, fun _ => ⟨current levelAt1000 1000, 1000, rfl, rfl, rfl⟩, by decide, fun h => absurd h (by decide), by decide,
      by decide, by decide, by decide, by decide, fun step hs => ?_⟩
    cases hs
    exact ⟨Or.inl rfl, Or.inl (Or.inl (by decide))⟩
  · exact ⟨by decide, fun h => absurd h (by decide), by decide, fun h => absurd h (by decide), by decide, by decide, by decide, by decide,
      by decide, fun step hs => absent_is_not rfl hs⟩

theorem witness_StepKeepsTracks_lists : busy.listsSound := by
  intro k
  have h : busy.track k = dueTrack levelAt1000 ∨ busy.track k = Track.powerOn := by revert k; decide
  rcases h with h | h <;> rw [h]
  · refine fun _ => ⟨⟨by decide, by decide, 3, rfl⟩, by decide, by decide, by decide, by decide, trivial, fun step hs => ?_,
      fun l hl => absent_is_not rfl hl, fun r hr => absent_is_not rfl hr⟩
    cases hs
    decide
  · exact fun hb => absurd hb (by decide)

theorem witness_StepKeepsTracks_orders : busy.ordersSound := by
  intro k
  have h : busy.track k = dueTrack levelAt1000 ∨ busy.track k = Track.powerOn := by revert k; decide
  rcases h with h | h <;> rw [h]
  · refine fun _ => ⟨by decide, fun r hr => absent_is_not rfl hr, fun _ => by decide,
      fun l hl => absent_is_not rfl hl, fun step hs => ?_⟩
    cases hs
    decide
  · exact fun hb => absurd hb (by decide)

theorem witness_StepKeepsTripHold : busy.tripsHold := by unfold State.tripsHold; decide

theorem witness_StepKeepsAdminEngine : busy.adminSound := ⟨by decide, by decide, by decide, by decide, by decide⟩

theorem witness_WaysOutOfSafeAndFaulted :
    Completes .powerOn (taking (safeTrack .late)) (after .powerOn (taking (safeTrack .late)))
      ∧ ((taking (safeTrack .late)).track 0).state = .safe
      ∧ ((after .powerOn (taking (safeTrack .late))).track 0).state ≠ .safe ∧ (ready.setDev .faulted).port.dev = .faulted
      ∧ (after .powerOn (ready.setDev .faulted)).port.dev ≠ .faulted := ⟨rfl, by decide, by decide, by decide, by decide⟩

end Sys2Proof.Tests
end

section
/-!
SUPPORT. What the operations of one track's event do to the state and to that track's context, said once: a moved retire index, a
step that retires, a WAIT that begins, an END, and the head of the prefetch list by its kind.
-/

namespace Sys2Proof.Machine

/-! ## What no event of a track touches -/

/-- The parts of the state that a retiring step leaves as they were: all but the track contexts and the writes in flight. -/
def SameButTracksAndWrites (s0 s : State) : Prop :=
  s = { s0 with tracks := s.tracks, link := { s0.link with writes := s.link.writes, out := s.link.out } }

theorem setRetire_track_ne (t : TrackId) (r : Nat) (s : State) {k : TrackId} (h : k ≠ t) : (setRetire t r s).track k = s.track k :=
  ((otherTrack_trackClosed s t).setRetire r ⟨fun _ _ => rfl, rfl⟩).1 k h

/-! ## The retire index -/

@[simp] theorem track_setRetire (t : TrackId) (r : Nat) (s : State) :
    (setRetire t r s).track t = { s.track t with
      retire := r
      retireWrite := if (s.track t).retire ≠ r ∧ (s.track t).retireAddr ≠ 0 ∧ (s.track t).retireWrite = none
        then some { value := r, earlier := false } else (s.track t).retireWrite } := by
  rw [setRetire_eq]
  split <;> simp

theorem setRetire_writes (t : TrackId) (r : Nat) (s : State) :
    (setRetire t r s).link.writes = s.link.writes ++
      (if (s.track t).retire ≠ r ∧ (s.track t).retireAddr ≠ 0 ∧ (s.track t).retireWrite = none
        then [{ addr := (s.track t).retireAddr, data := leBytes 4 32 (BitVec.ofNat 32 r), purpose := .retireWord t }] else []) := by
  rw [setRetire_eq]
  split <;> simp [bytes32]

theorem setRetire_sameBut (t : TrackId) (r : Nat) (s : State) : SameButTracksAndWrites s (setRetire t r s) := by
  rw [setRetire_eq]
  split <;> rfl

theorem setRetire_self (t : TrackId) (s : State) : setRetire t (s.track t).retire s = s := by
  simp [setRetire]

/-! ## A step that retires -/

/-- The retire index after a step at this position has retired: past it outside a loop, where it was inside one (R30, R45). -/
def Track.retiredTo (c : Track) (pos : Nat) : Nat := if c.loop = none then c.after pos else c.retire

/-- The state with the retire index moved and the outcome counted, before the STEP-DONE (R30 steps 2 and 3). -/
def counted (t : TrackId) (step : CurrentStep) (o : StepOutcome) (s : State) : State :=
  (setRetire t ((s.track t).retiredTo step.pos) s).modTrack t fun c => c.countOutcome o

/-- The state in which a retiring step has been reported and a requested stop is looked for (R30 steps 2 to 5). -/
def retired (t : TrackId) (step : CurrentStep) (o : StepOutcome) (s : State) : State := stepDone t step o (counted t step o s)

theorem Track.countOutcome_eq (c : Track) (o : StepOutcome) :
    c.countOutcome o = { c with
      applied := if o = .skipped then c.applied else c.applied + 1
      skipped := if o = .skipped then c.skipped + 1 else c.skipped } := by
  cases o <;> rfl

theorem track_counted (t : TrackId) (step : CurrentStep) (o : StepOutcome) (s : State) :
    (counted t step o s).track t = { s.track t with
      retire := (s.track t).retiredTo step.pos
      retireWrite :=
        if (s.track t).retire ≠ (s.track t).retiredTo step.pos ∧ (s.track t).retireAddr ≠ 0 ∧ (s.track t).retireWrite = none
        then some { value := (s.track t).retiredTo step.pos, earlier := false } else (s.track t).retireWrite
      applied := if o = .skipped then (s.track t).applied else (s.track t).applied + 1
      skipped := if o = .skipped then (s.track t).skipped + 1 else (s.track t).skipped } := by
  simp [counted, Track.countOutcome_eq]

theorem counted_track_ne (t : TrackId) (step : CurrentStep) (o : StepOutcome) (s : State) {k : TrackId} (h : k ≠ t) :
    (counted t step o s).track k = s.track k := by
  rw [counted, State.track_modTrack_ne _ _ h, setRetire_track_ne _ _ _ h]

theorem counted_sameBut (t : TrackId) (step : CurrentStep) (o : StepOutcome) (s : State) :
    SameButTracksAndWrites s (counted t step o s) := by
  unfold counted
  have h := setRetire_sameBut t ((s.track t).retiredTo step.pos) s
  generalize setRetire t ((s.track t).retiredTo step.pos) s = s1 at h
  rw [h]
  rfl

theorem counted_writes (t : TrackId) (step : CurrentStep) (o : StepOutcome) (s : State) :
    (counted t step o s).link.writes = (setRetire t ((s.track t).retiredTo step.pos) s).link.writes := rfl

theorem counted_decision (t : TrackId) (step : CurrentStep) (o : StepOutcome) (s : State) (q : QueueId) :
    (counted t step o s).decision q = s.decision q := by
  rw [counted_sameBut t step o s]
  rfl

theorem counted_time (t : TrackId) (step : CurrentStep) (o : StepOutcome) (s : State) : (counted t step o s).time = s.time := by
  rw [counted_sameBut t step o s]

/-- A saturating byte count rises up to 255. -/
theorem satInc_byte (x : BitVec 8) : satInc x = if x = 255 then 255 else x + 1 := by
  unfold satInc
  rw [show BitVec.allOnes 8 = 255 from rfl]
  split
  · next h => exact h
  · rfl

/-- Without *notify* a step makes no STEP-DONE (R56). -/
theorem stepDone_silent {t : TrackId} {step : CurrentStep} {o : StepOutcome} {s : State} (h : recNotify step.record = false) :
    stepDone t step o s = s := by
  simp [stepDone, h]

/-- With *notify* the STEP-DONE is handed, and the unreported count follows the decision (R56, R57). -/
theorem stepDone_notify {t : TrackId} {step : CurrentStep} {o : StepOutcome} {s : State} (h : recNotify step.record = true) :
    stepDone t step o s =
      (handReport (s.track t).rq (stepDoneReport t (s.track t) step o s.time) s).setTrack t { s.track t with
        unreported := if s.decision (s.track t).rq = .posted then 0
          else if (s.track t).unreported = 255 then 255 else (s.track t).unreported + 1 } := by
  simp [stepDone, h, State.modTrack_eq, satInc_byte]

/-- Of the track's context a STEP-DONE changes the unreported count alone. -/
theorem track_stepDone (t : TrackId) (step : CurrentStep) (o : StepOutcome) (s : State) :
    ∃ n, (stepDone t step o s).track t = { s.track t with unreported := n } := by
  cases h : recNotify step.record
  · exact ⟨_, by rw [stepDone_silent h]⟩
  · exact ⟨_, by rw [stepDone_notify h, State.track_setTrack_self]⟩

/-- A step that retires moves the retire index as `Track.retiredTo` says, and of the rest of its track the retire-word mark and the
counters alone. -/
theorem track_retired (t : TrackId) (step : CurrentStep) (o : StepOutcome) (s : State) :
    ∃ w a k n, (retired t step o s).track t = { s.track t with
      retire := (s.track t).retiredTo step.pos, retireWrite := w, applied := a, skipped := k, unreported := n } := by
  obtain ⟨n, h⟩ := track_stepDone t step o (counted t step o s)
  rw [track_counted] at h
  exact ⟨_, _, _, n, h⟩

/-- A step that retires: a requested stop takes effect, or the step is dropped and the track goes on (R30, R55). -/
theorem retireStep_eq (t : TrackId) (step : CurrentStep) (o : StepOutcome) (s : State) :
    retireStep t step o s =
      match (s.track t).stopReq with
      | some lines => .rest (stopEffect t lines (retired t step o s))
      | none => .goOn ((retired t step o s).modTrack t fun c => { c with current := none }) := by
  have hs : (if (s.track t).loop = none then setRetire t ((s.track t).after step.pos) s else s)
      = setRetire t ((s.track t).retiredTo step.pos) s := by
    unfold Track.retiredTo
    split
    · rfl
    · rw [setRetire_self]
  obtain ⟨w, a, k, n, h⟩ := track_retired t step o s
  have hq : ((retired t step o s).track t).stopReq = (s.track t).stopReq := by rw [h]
  unfold retireStep
  rw [hs]
  change (match ((retired t step o s).track t).stopReq with
    | some lines => Flow.rest (stopEffect t lines (retired t step o s))
    | none => Flow.goOn ((retired t step o s).modTrack t fun c => { c with current := none })) = _
  rw [hq]

theorem retireStep_stops {t : TrackId} {s : State} {lines : StopLines} (step : CurrentStep) (o : StepOutcome)
    (h : (s.track t).stopReq = some lines) : retireStep t step o s = .rest (stopEffect t lines (retired t step o s)) := by
  rw [retireStep_eq, h]

theorem retireStep_goesOn {t : TrackId} {s : State} (step : CurrentStep) (o : StepOutcome) (h : (s.track t).stopReq = none) :
    retireStep t step o s = .goOn ((retired t step o s).modTrack t fun c => { c with current := none }) := by
  rw [retireStep_eq, h]

/-! ## A WAIT -/

/-- A WAIT that begins is met at once, or the track enters INPUT-WAIT (R41). -/
theorem beginWait_cases (t : TrackId) (step : CurrentStep) (s : State) :
    let begun := { step with waitStart := some s.time }
    let s1 := s.modTrack t fun c => { c with current := some begun }
    beginWait t step s = retireStep t begun .waitMet (setRef t s.time s1)
      ∨ beginWait t step s = .rest (s1.modTrack t fun c => c.toInputWait s.time (recTimeout step.record)) := by
  unfold beginWait
  dsimp only
  split
  · split
    · exact .inl rfl
    · exact .inr rfl
  · split
    · exact .inl rfl
    · exact .inr rfl

/-! ## An END -/

/-- The state in which an END retires: the reference time set and any loop closed (R40). -/
def ending (t : TrackId) (step : CurrentStep) (s : State) : State :=
  s.setTrack t { s.track t with refTime := step.due.getD 0, loop := none }

@[simp] theorem track_ending (t : TrackId) (step : CurrentStep) (s : State) :
    (ending t step s).track t = { s.track t with refTime := step.due.getD 0, loop := none } := by
  simp [ending]

theorem ending_retiredTo (t : TrackId) (step : CurrentStep) (s : State) (pos : Nat) :
    ((ending t step s).track t).retiredTo pos = (s.track t).after pos := by
  simp [Track.retiredTo, Track.after]

/-- The state in which ENDED has been handed (R40). -/
def ended (t : TrackId) (step : CurrentStep) (o : StepOutcome) (s : State) : State :=
  trackEvent t .ended none (recTag step.record) step.pos 0
    ((retired t step o (ending t step s)).modTrack t fun c => { c.idleTimers with current := none, state := .stopped })

/-- The track of an END that has taken effect is STOPPED with its list, fetch index and lanes kept (R40). -/
theorem track_ended (t : TrackId) (step : CurrentStep) (o : StepOutcome) (s : State) :
    ∃ w a k n, (ended t step o s).track t = { s.track t with
      refTime := step.due.getD 0, loop := none, retire := (s.track t).after step.pos, retireWrite := w, applied := a, skipped := k
      unreported := n, dueTimer := none, timeoutTimer := none, holdTimer := none, current := none, state := .stopped } := by
  obtain ⟨w, a, k, n, h⟩ := track_retired t step o (ending t step s)
  rw [ending_retiredTo, track_ending] at h
  refine ⟨w, a, k, n, ?_⟩
  unfold ended trackEvent
  rw [handReport_track, State.track_modTrack_self, h]
  rfl

/-- An END that takes effect retires outside any loop, and then a requested stop takes effect (R40, R55). -/
theorem endEffect_eq (t : TrackId) (step : CurrentStep) (o : StepOutcome) (s : State) :
    endEffect t step o s =
      match (s.track t).stopReq with
      | some lines => stopEffect t lines (ended t step o s)
      | none => ended t step o s := by
  have he : (setRef t (step.due.getD 0) s).modTrack t (fun c => { c with loop := none }) = ending t step s := by
    simp [setRef, State.modTrack_eq, ending]
  have hr : ((ending t step s).track t).after step.pos = ((ending t step s).track t).retiredTo step.pos := by
    rw [ending_retiredTo, track_ending]; rfl
  obtain ⟨w, a, k, n, h⟩ := track_ended t step o s
  have hq : ((ended t step o s).track t).stopReq = (s.track t).stopReq := by rw [h]
  unfold endEffect
  dsimp only
  rw [he, hr]
  change (match ((ended t step o s).track t).stopReq with
    | some lines => stopEffect t lines (ended t step o s)
    | none => ended t step o s) = _
  rw [hq]

/-! ## The list of a track that goes on -/

/-- A flow that goes on leaves the track this prefetch list. -/
def Flow.KeepsList (t : TrackId) (es : List Fetched) : Flow → Prop
  | .rest _ => True
  | .goOn s => (s.track t).prefetch = es

theorem retireStep_keepsList (t : TrackId) (step : CurrentStep) (o : StepOutcome) (s : State) :
    (retireStep t step o s).KeepsList t (s.track t).prefetch := by
  obtain ⟨w, a, k, n, e⟩ := track_retired t step o s
  rw [retireStep_eq]
  split
  · trivial
  · simp only [Flow.KeepsList]
    rw [State.track_modTrack_self, e]

theorem beginWait_keepsList (t : TrackId) (step : CurrentStep) (s : State) :
    (beginWait t step s).KeepsList t (s.track t).prefetch := by
  rcases beginWait_cases t step s with e | e <;> rw [e]
  · simpa [setRef] using retireStep_keepsList t { step with waitStart := some s.time } .waitMet
      (setRef t s.time (s.modTrack t fun c => { c with current := some { step with waitStart := some s.time } }))
  · trivial

theorem takeEffect_keepsList (t : TrackId) (step : CurrentStep) (late : Bool) (s : State) :
    (takeEffect t step late s).KeepsList t (s.track t).prefetch := by
  unfold takeEffect
  dsimp only
  split
  · simpa [setRef, claimLevel] using retireStep_keepsList t step (if late = true then .appliedLate else .applied)
      (setRef t (step.due.getD 0) (claimLevel t (recMask step.record) (recValue step.record) s))
  · simpa [setRef] using retireStep_keepsList t step (if late = true then .appliedLate else .applied) (setRef t (step.due.getD 0) s)
  · trivial
  · exact beginWait_keepsList t step s
  · trivial
  · trivial
  · trivial

theorem judge_keepsList (t : TrackId) (step : CurrentStep) (s : State) : (judge t step s).KeepsList t (s.track t).prefetch := by
  have hl : (s.modTrack t fun c => { c with late := c.late + 1 }).track t = { s.track t with late := (s.track t).late + 1 } :=
    s.track_modTrack_self t _
  unfold judge
  dsimp only
  split
  · trivial
  · split
    · exact takeEffect_keepsList t step false s
    · unfold lateStep
      split
      · simpa [hl] using takeEffect_keepsList t step true (s.modTrack t fun c => { c with late := c.late + 1 })
      · split
        · simpa [hl] using takeEffect_keepsList t step true (s.modTrack t fun c => { c with late := c.late + 1 })
        · simpa [hl, setRef, skipStep] using retireStep_keepsList t step .skipped
            (setRef t (step.due.getD 0) (s.modTrack t fun c => { c with late := c.late + 1 }))
      · trivial

/-! ## The head of the list -/

/-- The current step that a record becomes: its place, no due time yet, and the pass of an active loop (R28). -/
def Track.headStep (c : Track) (e : Fetched) : CurrentStep :=
  { record := e.record, pos := e.pos, due := none, waitStart := none, pass := (c.loop.map (·.pass)).getD 0 }

section Head

variable {t : TrackId} {s : State} {e : Fetched} {rest : List Fetched}

/-- With an empty list the track is EMPTY (R28, R48). -/
theorem takeNext_empty (hp : (s.track t).prefetch = []) : takeNext t s = enterEmpty t s := by
  rw [takeNext, hp, takeChain]

/-- A head that fails its check stays current in SAFE (R22). -/
theorem takeNext_bad {sub : Subcode} (hp : (s.track t).prefetch = e :: rest)
    (hc : checkRecord (s.track t).lanes.length (s.track t).loop.isSome e.record = some sub) :
    takeNext t s = enterSafe t (.badStep sub) .started (s.setTrack t ((s.track t).takeHead e rest)) := by
  rw [takeNext, hp, takeChain, hc]
  rfl

/-- A checked LOOP opens its loop context, and the next record is taken (R45). -/
theorem takeNext_loop (hp : (s.track t).prefetch = e :: rest)
    (hc : checkRecord (s.track t).lanes.length (s.track t).loop.isSome e.record = none) (hk : recKind e.record = some .loop) :
    takeNext t s = takeNext t (s.setTrack t (((s.track t).takeHead e rest).openLoop e)) := by
  rw [takeNext, takeNext, hp, takeChain, hc, hk]
  simp [State.modTrack_eq, Track.openLoop, Track.takeHead]

/-- A checked NEXT with more than one pass remaining jumps, and the track is EMPTY (R46). -/
theorem takeNext_jump {l : LoopCtx} (hp : (s.track t).prefetch = e :: rest)
    (hc : checkRecord (s.track t).lanes.length (s.track t).loop.isSome e.record = none) (hk : recKind e.record = some .next)
    (hl : (s.track t).loop = some l) (hr : 1 < l.remaining) :
    takeNext t s = enterEmpty t (s.setTrack t (((s.track t).takeHead e rest).jump l)) := by
  rw [takeNext, hp, takeChain, hc, hk, hl]
  dsimp only
  rw [if_pos hr]
  simp [State.modTrack_eq]

/-- A checked NEXT with one pass remaining closes the loop, and the next record is taken (R47). -/
theorem takeNext_close {l : LoopCtx} (hp : (s.track t).prefetch = e :: rest)
    (hc : checkRecord (s.track t).lanes.length (s.track t).loop.isSome e.record = none) (hk : recKind e.record = some .next)
    (hl : (s.track t).loop = some l) (hr : ¬1 < l.remaining) :
    takeNext t s = takeNext t (closeLoop t e (s.setTrack t ((s.track t).takeHead e rest))) := by
  rw [takeNext, takeNext, hp, takeChain, hc, hk, hl]
  dsimp only
  rw [if_neg hr]
  simp [State.modTrack_eq, closeLoop, Track.takeHead]

theorem fixAndJudge_keepsList (t : TrackId) (step : CurrentStep) (d : Time) (s : State) :
    (fixAndJudge t step d s).KeepsList t (s.track t).prefetch := by
  have h := judge_keepsList t { step with due := some d } (s.modTrack t fun c => { c with current := some { step with due := some d } })
  rwa [State.track_modTrack_self] at h

/-- A checked timed head becomes current with its due time and is judged, and the track goes on from it (R28, R29, R31, R33). -/
theorem takeNext_timed (hp : (s.track t).prefetch = e :: rest)
    (hc : checkRecord (s.track t).lanes.length (s.track t).loop.isSome e.record = none) (ht : Timed e.record) :
    takeNext t s = carryOn t (fixAndJudge t ((s.track t).headStep e) (dueTime e.record (s.track t).refTime s.time)
      (s.setTrack t ((s.track t).takeHead e rest))) := by
  have hs : startStep t (s.setTrack t ((s.track t).takeHead e rest)) = fixAndJudge t ((s.track t).headStep e)
      (dueTime e.record (s.track t).refTime s.time) (s.setTrack t ((s.track t).takeHead e rest)) := by
    simp [startStep, Track.takeHead, Track.headStep]
  have hk := fixAndJudge_keepsList t ((s.track t).headStep e) (dueTime e.record (s.track t).refTime s.time)
    (s.setTrack t ((s.track t).takeHead e rest))
  rw [State.track_setTrack_self] at hk
  have hrun : takeNext t s = match startStep t (s.setTrack t ((s.track t).takeHead e rest)) with
      | .rest s2 => s2
      | .goOn s2 => takeChain t rest s2 := by
    rw [takeNext, hp, takeChain, hc]
    rcases ht with h | h | h | h <;> rw [h] <;> rfl
  rw [hrun, hs]
  generalize fixAndJudge t ((s.track t).headStep e) (dueTime e.record (s.track t).refTime s.time)
    (s.setTrack t ((s.track t).takeHead e rest)) = f at hk
  cases f with
  | rest s2 => rfl
  | goOn s2 => rw [carryOn, takeNext, show (s2.track t).prefetch = rest from hk]

end Head

end Sys2Proof.Machine
end

section
/-!
SUPPORT. The ring of a bound track: the positions of R1, R12, R13 and R45 as one predicate, and what each change that an event makes to
the retire, fetch and post index, the prefetch list, the current step and the loop does to it.
-/

namespace Sys2Proof.Machine

/-! ## Ring positions -/

theorem mod_of_lt {size pos : Nat} (h : pos < size) : (pos + 1) % size = if pos + 1 = size then 0 else pos + 1 := by
  split
  · next e => rw [e, Nat.mod_self]
  · rw [Nat.mod_eq_of_lt (by omega)]

/-- The distance of two ring positions, said without the modulus: how far the one lies after the other. -/
theorem ringDist_spec {size a b : Nat} (ha : a < size) (hb : b < size) :
    ringDist size a b < size ∧ (b + ringDist size a b = a ∨ b + ringDist size a b = a + size) := by
  rw [ringDist_eq ha hb]
  split <;> omega

/-- The first of the positions that a list holds before `next`. -/
def headPos (next : Nat) : List Fetched → Nat
  | [] => next
  | e :: _ => e.pos

theorem Track.nextPos_eq (c : Track) : c.nextPos = headPos c.fetch c.prefetch := by
  unfold Track.nextPos headPos
  cases c.prefetch <;> rfl

theorem consecutiveTo_cons {size next : Nat} {e : Fetched} {rest : List Fetched} :
    ConsecutiveTo size next (e :: rest) ↔ e.pos < size ∧ (e.pos + 1) % size = headPos next rest ∧ ConsecutiveTo size next rest := by
  cases rest <;> exact Iff.rfl

/-- The first record of a list stands as many positions before `next` as the list is long (R12). -/
theorem headPos_distance {size next : Nat} (hn : next < size) {es : List Fetched} (hc : ConsecutiveTo size next es)
    (hl : es.length < size) : headPos next es < size ∧ ringDist size next (headPos next es) = es.length := by
  induction es with
  | nil => exact ⟨hn, ringDist_self hn⟩
  | cons e rest ih =>
    obtain ⟨hp, hs, hr⟩ := consecutiveTo_cons.mp hc
    simp only [List.length_cons] at hl
    obtain ⟨hq, hd⟩ := ih hr (by omega)
    refine ⟨hp, ?_⟩
    have hs' := ringDist_spec hn hq
    have hp' := ringDist_spec hn hp
    rw [mod_of_lt hp] at hs
    simp only [headPos, List.length_cons]
    split at hs <;> omega

/-- A list extended by consecutive records from `next` on (R14). -/
theorem ConsecutiveTo.append {size next next' : Nat} {es fs : List Fetched} (he : ConsecutiveTo size next es)
    (hf : ConsecutiveTo size next' fs) (hn : headPos next' fs = next) : ConsecutiveTo size next' (es ++ fs) := by
  induction es with
  | nil => exact hf
  | cons e rest ih =>
    obtain ⟨hp, hs, hr⟩ := consecutiveTo_cons.mp he
    refine consecutiveTo_cons.mpr ⟨hp, ?_, ih hr⟩
    cases rest with
    | nil => rw [hs]; exact hn.symm
    | cons e' rest' => exact hs

/-! ## The records of a read -/

/-- Records placed at consecutive positions that do not pass the ring end, as `fetched` places them (R13, R14). -/
theorem placed_consecutive (size start i : Nat) (xs : List StepRecord) (h : start + i + xs.length ≤ size) :
    ConsecutiveTo size ((start + i + xs.length) % size)
        ((xs.zipIdx i).map fun x => { record := x.1, pos := start + x.2 })
      ∧ headPos ((start + i + xs.length) % size) ((xs.zipIdx i).map fun x => { record := x.1, pos := start + x.2 })
        = (start + i) % size := by
  induction xs generalizing i with
  | nil => exact ⟨trivial, rfl⟩
  | cons x xs ih =>
    simp only [List.length_cons] at h
    have hn : start + (i + 1) + xs.length = start + i + (xs.length + 1) := by omega
    obtain ⟨hc, hh⟩ := ih (i + 1) (by omega)
    rw [hn] at hc hh
    rw [List.zipIdx_cons, List.map_cons, List.length_cons]
    refine ⟨consecutiveTo_cons.mpr ⟨show start + i < size by omega, hh.symm, hc⟩, ?_⟩
    exact (Nat.mod_eq_of_lt (show start + i < size by omega)).symm

@[simp] theorem fetched_length (r : ReadInFlight) (data : Vector StepRecord 8) (h : r.count ≤ 8) :
    (fetched r data).length = r.count := by
  simp [fetched, h]

theorem fetched_consecutive {size : Nat} {r : ReadInFlight} (data : Vector StepRecord 8) (hc : r.count ≤ 8) (hs : r.start < size)
    (he : r.start + r.count ≤ size) :
    ConsecutiveTo size ((r.start + r.count) % size) (fetched r data)
      ∧ headPos ((r.start + r.count) % size) (fetched r data) = r.start := by
  have hlen : (data.toList.take r.count).length = r.count := by simp [hc]
  have h := placed_consecutive size r.start 0 (data.toList.take r.count) (by omega)
  rwa [hlen, Nat.add_zero, Nat.mod_eq_of_lt hs] at h

/-! ## The ring of a track -/

/-- What R1, R12, R13, R28 and R45 say of the ring of a bound track. -/
structure Track.Ring (c : Track) : Prop where
  size : PowerBetween 4 4096 c.sqSize
  fetch_lt : c.fetch < c.sqSize
  post_lt : c.post < c.sqSize
  retire_lt : c.retire < c.sqSize
  short : c.prefetch.length ≤ 8
  consecutive : ConsecutiveTo c.sqSize c.fetch c.prefetch
  pos_lt : ∀ step, c.current = some step → step.pos < c.sqSize
  loop : ∀ l, c.loop = some l → l.start = (l.pos + 1) % c.sqSize ∧ l.pos < c.sqSize ∧ l.remaining ≠ 0
  read : ∀ r, c.read = some r → r.stale = false →
    r.start = c.fetch ∧ r.start + r.count ≤ c.sqSize ∧ c.prefetch.length + r.count ≤ 8
  order : ringDist c.sqSize c.fetch c.retire ≤ ringDist c.sqSize c.post c.retire
  readPosted : ∀ r, c.read = some r → r.stale = false → r.count ≤ ringDist c.sqSize c.post c.fetch
  outside : c.loop = none → ringDist c.sqSize c.fetch c.retire = c.held + c.prefetch.length
  inside : ∀ l, c.loop = some l → c.retire = l.pos ∧ c.held + c.prefetch.length + 1 ≤ ringDist c.sqSize c.fetch c.retire
  next : ∀ step, c.current = some step → (step.pos + 1) % c.sqSize = headPos c.fetch c.prefetch

/-- Of a bound track, the list and the order are sound exactly when the ring is. -/
theorem ring_iff {c : Track} (hb : c.bound = true) : c.listSound ∧ c.orderSound ↔ c.Ring := by
  unfold Track.listSound Track.orderSound
  rw [Track.nextPos_eq]
  constructor
  · rintro ⟨hl, ho⟩
    obtain ⟨hs, hf, hp, hr, h8, hc, hcur, hlp, hrd⟩ := hl hb
    obtain ⟨h1, h2, h3, h4, h5⟩ := ho hb
    exact ⟨hs, hf, hp, hr, h8, hc, hcur, hlp, hrd, h1, h2, h3, h4, h5⟩
  · intro h
    exact ⟨fun _ => ⟨h.size, h.fetch_lt, h.post_lt, h.retire_lt, h.short, h.consecutive, h.pos_lt, h.loop, h.read⟩,
      fun _ => ⟨h.order, h.readPosted, h.outside, h.inside, h.next⟩⟩

/-- The fields of a track that its ring speaks of. -/
def Track.ringPart (c : Track) : Nat × Nat × Nat × Nat × List Fetched × Option CurrentStep × Option LoopCtx × Option ReadInFlight :=
  (c.sqSize, c.fetch, c.post, c.retire, c.prefetch, c.current, c.loop, c.read)

theorem Track.held_none {c : Track} (h : c.current = none) : c.held = 0 := by simp [Track.held, h]

theorem Track.held_some {c : Track} {step : CurrentStep} (h : c.current = some step) : c.held = 1 := by simp [Track.held, h]

namespace Track.Ring

theorem congr {c d : Track} (h : c.Ring) (e : d.ringPart = c.ringPart) : d.Ring := by
  simp only [Track.ringPart, Prod.mk.injEq] at e
  obtain ⟨hs, hf, hp, hr, hl, hc, hlp, hrd⟩ := e
  have hh : d.held = c.held := by simp [Track.held, hc]
  constructor <;> simp only [hs, hf, hp, hr, hl, hc, hlp, hrd, hh]
  exacts [h.size, h.fetch_lt, h.post_lt, h.retire_lt, h.short, h.consecutive, h.pos_lt, h.loop, h.read, h.order, h.readPosted,
    h.outside, h.inside, h.next]

theorem size_pos {c : Track} (h : c.Ring) : 4 ≤ c.sqSize := h.size.1

/-- The list is shorter than the ring. -/
theorem length_lt {c : Track} (h : c.Ring) : c.held + c.prefetch.length < c.sqSize := by
  have hd : ringDist c.sqSize c.fetch c.retire < c.sqSize := ringDist_lt (by have := h.size_pos; omega)
  cases hl : c.loop with
  | none => rw [← h.outside hl]; exact hd
  | some l => have := (h.inside l hl).2; omega

/-- The next position stands as many positions before the fetch index as the list is long (R12, R53). -/
theorem next_distance {c : Track} (h : c.Ring) :
    headPos c.fetch c.prefetch < c.sqSize ∧ ringDist c.sqSize c.fetch (headPos c.fetch c.prefetch) = c.prefetch.length :=
  headPos_distance h.fetch_lt h.consecutive (by have := h.length_lt; omega)

/-- The retire index moves to the next position and the current step is dropped; a loop, if there was one, is closed (R30, R40, R47). -/
theorem retire_to_next {c : Track} (h : c.Ring) :
    ({ c with retire := headPos c.fetch c.prefetch, current := none, loop := none } : Track).Ring := by
  obtain ⟨hn, hd⟩ := h.next_distance
  have hr := h.retire_lt
  have hf := h.fetch_lt
  have hp := h.post_lt
  have hs : c.prefetch.length ≤ ringDist c.sqSize c.fetch c.retire := by
    cases hl : c.loop with
    | none => have := h.outside hl; omega
    | some l => have := (h.inside l hl).2; omega
  have hle := h.order
  have h1 := ringDist_spec hf hr
  have h2 := ringDist_spec hp hr
  have h3 := ringDist_spec hf hn
  have h4 := ringDist_spec hp hn
  exact { h with
    retire_lt := hn
    pos_lt := by simp
    loop := by simp
    order := by dsimp only; omega
    outside := fun _ => by simpa [Track.held] using hd
    inside := by simp
    next := by simp }

/-- The current step retires: outside a loop the retire index moves past it, inside one it stays (R30, R45). -/
theorem retire {c : Track} {step : CurrentStep} (h : c.Ring) (hc : c.current = some step) :
    ({ c with retire := c.retiredTo step.pos, current := none } : Track).Ring := by
  unfold Track.retiredTo
  by_cases hl : c.loop = none
  · rw [if_pos hl, show c.after step.pos = headPos c.fetch c.prefetch from h.next step hc]
    exact h.retire_to_next.congr (by simp [Track.ringPart, hl])
  · rw [if_neg hl]
    exact { h with
      pos_lt := by simp
      outside := fun e => absurd e hl
      inside := fun l e => ⟨(h.inside l e).1, by have := (h.inside l e).2; simp only [Track.held]; simp; omega⟩
      next := by simp }

/-- A record past which a loop is closed: the END, or the NEXT with one pass remaining (R40, R47). -/
theorem retire_closing {c : Track} {step : CurrentStep} (h : c.Ring) (hc : c.current = some step) :
    ({ c with retire := c.after step.pos, current := none, loop := none } : Track).Ring := by
  rw [show c.after step.pos = headPos c.fetch c.prefetch from h.next step hc]
  exact h.retire_to_next

/-- Another step at the place of the current one. -/
theorem replace_current {c : Track} {step step' : CurrentStep} (h : c.Ring) (hc : c.current = some step) (hp : step'.pos = step.pos) :
    ({ c with current := some step' } : Track).Ring :=
  have hh : ({ c with current := some step' } : Track).held = c.held := by rw [Track.held_some hc, Track.held_some rfl]
  { h with
    pos_lt := fun _ e => by cases e; rw [hp]; exact h.pos_lt step hc
    outside := hh ▸ h.outside
    inside := hh ▸ h.inside
    next := fun _ e => by cases e; rw [hp]; exact h.next step hc }

/-- The head of the list becomes the current step (R28). -/
theorem take_head {c : Track} {e : Fetched} {rest : List Fetched} (h : c.Ring) (hc : c.current = none) (hp : c.prefetch = e :: rest) :
    (c.takeHead e rest).Ring := by
  obtain ⟨he, hs, hr⟩ := consecutiveTo_cons.mp (hp ▸ h.consecutive)
  have hlen : c.prefetch.length = rest.length + 1 := by rw [hp]; rfl
  have hheld : (c.takeHead e rest).held + rest.length = c.held + c.prefetch.length := by
    rw [Track.held_some rfl, Track.held_none hc]; omega
  have h8 := h.short
  exact { h with
    short := show rest.length ≤ 8 by omega
    consecutive := hr
    pos_lt := fun _ e => by cases e; exact he
    read := fun r hr hst => by have := h.read r hr hst; dsimp only [Track.takeHead]; omega
    outside := hheld ▸ h.outside
    inside := hheld ▸ h.inside
    next := fun _ e => by cases e; exact hs }

/-- A LOOP that has become current opens its loop context: the retire index stands at it (R45). -/
theorem open_loop {c : Track} {e : Fetched} {step : CurrentStep} (h : c.Ring) (hc : c.current = some step) (hp : step.pos = e.pos)
    (hl : c.loop = none) (hn : recCount e.record ≠ 0) : (c.openLoop e).Ring := by
  have hd := h.outside hl
  rw [Track.held_some hc] at hd
  have hlt : e.pos < c.sqSize := hp ▸ h.pos_lt step hc
  have hnext := h.next step hc
  have hr := h.retire_lt
  have hlen := h.length_lt
  rw [Track.held_some hc] at hlen
  obtain ⟨hq, hdq⟩ := h.next_distance
  have h1 := ringDist_spec h.fetch_lt hr
  have h2 := ringDist_spec h.fetch_lt hq
  have he : c.retire = e.pos := by
    rw [hp, mod_of_lt hlt] at hnext
    split at hnext <;> omega
  exact { h with
    pos_lt := by simp [Track.openLoop]
    loop := fun l e' => by cases e'; exact ⟨rfl, hlt, hn⟩
    outside := fun e' => by cases e'
    inside := fun l e' => by cases e'; exact ⟨he, by simp only [Track.held, Track.openLoop]; simp; omega⟩
    next := by simp [Track.openLoop] }

/-- A NEXT with passes remaining jumps behind the LOOP; a read in flight becomes stale (R46). -/
theorem jump {c : Track} {l : LoopCtx} (h : c.Ring) (hl : c.loop = some l) (hn : 1 < l.remaining) : (c.jump l).Ring := by
  obtain ⟨hs, hp, hz⟩ := h.loop l hl
  obtain ⟨hr, hin⟩ := h.inside l hl
  have hsz := h.size_pos
  have hmod := mod_of_lt hp
  have hlt : l.start < c.sqSize := by rw [hs]; exact Nat.mod_lt _ (by omega)
  have hf := h.order
  have hone : ringDist c.sqSize l.start c.retire = 1 := by
    have := ringDist_spec hlt h.retire_lt
    rw [hmod] at hs
    split at hs <;> omega
  have hst : ∀ r : ReadInFlight, (c.jump l).read = some r → r.stale = true := by
    intro r e
    obtain ⟨r', -, rfl⟩ := Option.map_eq_some_iff.mp e
    rfl
  exact { h with
    fetch_lt := hlt
    short := Nat.zero_le 8
    consecutive := trivial
    pos_lt := by simp [Track.jump]
    loop := fun _ e => by cases e; exact ⟨hs, hp, by dsimp only; bv_omega⟩
    read := fun r e hf => absurd ((hst r e).symm.trans hf) (by decide)
    order := show ringDist c.sqSize l.start c.retire ≤ ringDist c.sqSize c.post c.retire by omega
    readPosted := fun r e hf => absurd ((hst r e).symm.trans hf) (by decide)
    outside := fun e => by cases e
    inside := fun _ e => by cases e; exact ⟨hr, show 0 + 0 + 1 ≤ ringDist c.sqSize l.start c.retire by omega⟩
    next := by simp [Track.jump] }

end Track.Ring

/-- The records are abandoned: every index at the post index (R69, R73). -/
theorem ring_abandon {c : Track} (hs : PowerBetween 4 4096 c.sqSize) (hp : c.post < c.sqSize) :
    ({ c.abandon with retire := c.post } : Track).Ring := by
  have hst : ∀ r : ReadInFlight, ({ c.abandon with retire := c.post } : Track).read = some r → r.stale = true := by
    intro r e
    obtain ⟨r', -, rfl⟩ := Option.map_eq_some_iff.mp e
    rfl
  exact {
    size := hs
    fetch_lt := hp
    post_lt := hp
    retire_lt := hp
    short := Nat.zero_le 8
    consecutive := trivial
    pos_lt := by simp [Track.abandon]
    loop := by simp [Track.abandon]
    read := fun r e hf => absurd ((hst r e).symm.trans hf) (by decide)
    order := Nat.le_refl _
    readPosted := fun r e hf => absurd ((hst r e).symm.trans hf) (by decide)
    outside := fun _ => ringDist_self hp
    inside := by simp [Track.abandon]
    next := by simp [Track.abandon] }

namespace Track.Ring

/-! ## What the fetch unit and the host do to the ring -/

/-- Without a read in flight nothing is said of one. -/
theorem drop_read {c : Track} (h : c.Ring) : ({ c with read := none } : Track).Ring :=
  { h with read := by simp, readPosted := by simp }

/-- The read that a granted requester issues (R13). -/
theorem issue_read {c : Track} (h : c.Ring) (hf : c.prefetch.length < 8) :
    ({ c with read := some { start := c.fetch, count := c.readLength, stale := false } } : Track).Ring := by
  have hlt := h.fetch_lt
  have h1 : c.readLength ≤ 8 - c.prefetch.length := (Nat.min_le_left _ _).trans (Nat.min_le_left _ _)
  have h2 : c.readLength ≤ c.sqSize - c.fetch := (Nat.min_le_left _ _).trans (Nat.min_le_right _ _)
  have h3 : c.readLength ≤ ringDist c.sqSize c.post c.fetch := Nat.min_le_right _ _
  exact { h with
    read := fun r e _ => by cases e; exact ⟨rfl, by dsimp only; omega, by dsimp only; omega⟩
    readPosted := fun r e _ => by cases e; exact h3 }

/-- A completed current read joins the list (R14). -/
theorem join {c : Track} {r : ReadInFlight} (data : Vector StepRecord 8) (h : c.Ring) (hr : c.read = some r) (hs : r.stale = false) :
    (c.join r data).Ring := by
  obtain ⟨hstart, hend, h8⟩ := h.read r hr hs
  have hle := h.readPosted r hr hs
  have hlen := fetched_length r data (by omega)
  obtain ⟨hcons, hhead⟩ := fetched_consecutive data (by omega) (hstart ▸ h.fetch_lt) hend
  rw [hstart] at hcons hhead
  have hsz := h.size_pos
  have hf := h.fetch_lt
  have hf' : (c.fetch + r.count) % c.sqSize < c.sqSize := Nat.mod_lt _ (by omega)
  have hmod : (c.fetch + r.count) % c.sqSize = if c.fetch + r.count = c.sqSize then 0 else c.fetch + r.count := by
    split
    · next e => rw [e, Nat.mod_self]
    · exact Nat.mod_eq_of_lt (by omega)
  have h1 := ringDist_spec hf h.retire_lt
  have h2 := ringDist_spec hf' h.retire_lt
  have h3 := ringDist_spec h.post_lt h.retire_lt
  have h4 := ringDist_spec h.post_lt hf
  have hle' := h.order
  have hadv : ringDist c.sqSize ((c.fetch + r.count) % c.sqSize) c.retire = ringDist c.sqSize c.fetch c.retire + r.count := by
    split at hmod <;> omega
  have hjoined : (c.join r data).prefetch.length = c.prefetch.length + r.count := by simp [Track.join, hlen]
  have hheld : (c.join r data).held = c.held := rfl
  exact { h with
    fetch_lt := hf'
    short := by omega
    consecutive := h.consecutive.append hcons hhead
    read := by simp [Track.join]
    order := show ringDist c.sqSize ((c.fetch + r.count) % c.sqSize) c.retire ≤ ringDist c.sqSize c.post c.retire by omega
    readPosted := by simp [Track.join]
    outside := fun hl => by rw [hjoined, hheld]; have := h.outside hl; exact hadv.trans (by omega)
    inside := fun l hl => ⟨(h.inside l hl).1, by
      rw [hjoined, hheld]
      have := (h.inside l hl).2
      exact Nat.le_trans (by omega) (Nat.le_of_eq hadv.symm)⟩
    next := fun step hc => by
      refine (h.next step hc).trans ?_
      simp only [Track.join]
      cases c.prefetch with
      | nil => exact hhead.symm
      | cons e es => rfl }

/-- A post index that passes the check (R2). -/
theorem post {c : Track} {index : Nat} (h : c.Ring) (hok : postOk c.sqSize c.post c.retire index = true) :
    ({ c with post := index } : Track).Ring := by
  simp only [postOk, Bool.and_eq_true, decide_eq_true_eq] at hok
  obtain ⟨hi, hok⟩ := hok
  have hsz := h.size_pos
  have h1 := ringDist_spec h.post_lt h.retire_lt
  have h2 := ringDist_spec hi h.post_lt
  have h3 := ringDist_spec hi h.retire_lt
  have h4 := ringDist_spec h.post_lt h.fetch_lt
  have h5 := ringDist_spec hi h.fetch_lt
  have h6 := ringDist_spec h.fetch_lt h.retire_lt
  have hf := h.order
  have hbehind : ringDist c.sqSize c.post c.fetch ≤ ringDist c.sqSize index c.fetch := by omega
  exact { h with
    post_lt := hi
    order := show ringDist c.sqSize c.fetch c.retire ≤ ringDist c.sqSize index c.retire by omega
    readPosted := fun r e hr => (h.readPosted r e hr).trans hbehind }

end Track.Ring
end Sys2Proof.Machine
end

section
/-!
SUPPORT. The three invariants of a track through an event of its own (section 2.2): where the event leaves the track, in DUE, INPUT-WAIT,
EMPTY, SAFE or STOPPED, each invariant holds again, however long the chain of records is.
-/

namespace Sys2Proof.Machine

/-! ## One track -/

/-- The timers, the prefetch list and the ring order of a track are sound. -/
def Track.sound (c : Track) : Prop := c.timersSound ∧ c.listSound ∧ c.orderSound

/-- A bound track in the middle of an event of its own: its start time is dropped and its ring is sound. -/
structure Track.Underway (c : Track) : Prop where
  bound : c.bound = true
  start : c.startTime = none
  ring : c.Ring

/-- A track about to take its next record. -/
structure Track.Taking (c : Track) : Prop extends c.Underway where
  current : c.current = none

/-- A track whose current timed step the event deals with. -/
structure Track.Holding (c : Track) (step : CurrentStep) : Prop extends c.Underway where
  current : c.current = some step
  timed : Timed step.record

theorem Track.sound.timers {c : Track} (h : c.sound) : c.timersSound := h.1

theorem Track.sound.ring {c : Track} (h : c.sound) (hb : c.bound = true) : c.Ring := (ring_iff hb).mp h.2

theorem Track.timersSound.sound {c : Track} (h : c.timersSound) (hb : c.bound = true) (hr : c.Ring) : c.sound :=
  ⟨h, (ring_iff hb).mpr hr⟩

/-- A change that leaves the ring of a track under way as it was leaves it under way. -/
theorem Track.Underway.congr {c d : Track} (h : c.Underway) (hb : d.state = c.state) (hs : d.startTime = c.startTime)
    (e : d.ringPart = c.ringPart) : d.Underway :=
  ⟨by simpa [Track.bound, hb] using h.bound, hs.trans h.start, h.ring.congr e⟩

theorem Track.bound_iff {c : Track} : c.bound = true ↔ c.state ≠ .unbound := by simp [Track.bound]

/-! ## Where an event leaves a track -/

theorem Track.Holding.toDue_sound {c : Track} {step : CurrentStep} {d : Time} (h : c.Holding step) (hd : step.due = some d) :
    (c.toDue d).sound := by
  refine Track.timersSound.sound ?_ rfl (h.ring.congr rfl)
  simp [Track.timersSound, Track.toDue, Track.idleTimers, h.start, h.current, hd, h.timed]

theorem Track.Holding.toInputWait_sound {c : Track} {step : CurrentStep} {now : Time} (h : c.Holding step)
    (hw : step.waitStart = some now) : (c.toInputWait now (recTimeout step.record)).sound := by
  refine Track.timersSound.sound ?_ rfl (h.ring.congr rfl)
  simp [Track.timersSound, Track.toInputWait, Track.idleTimers, h.start, h.current, hw, h.timed]

theorem Track.Taking.toEmpty_sound {c : Track} {now : Time} (h : c.Taking) (hl : c.prefetch = []) : (c.toEmpty now).sound := by
  refine Track.timersSound.sound ?_ rfl (h.ring.congr (by simp [Track.ringPart, Track.toEmpty, Track.idleTimers, h.current]))
  simp [Track.timersSound, Track.toEmpty, Track.idleTimers, h.start, hl]

/-- Entry into SAFE: a track that had not started holds no current step, and one it holds is timed or has failed its check. -/
theorem Track.Ring.toSafe_sound {c : Track} {cause : SafeCause} {origin : SafeFrom} (h : c.Ring)
    (hn : origin = .notStarted → c.current = none)
    (ht : ∀ step, c.current = some step → Timed step.record ∨ cause.isBadStep = true) : (c.toSafe cause origin).sound := by
  refine Track.timersSound.sound ?_ rfl (h.congr rfl)
  simpa [Track.timersSound, Track.toSafe, Track.idleTimers] using ⟨hn, ht⟩

theorem Track.Holding.toSafe_sound {c : Track} {step : CurrentStep} (cause : SafeCause) (h : c.Holding step) :
    (c.toSafe cause .started).sound :=
  h.ring.toSafe_sound (by simp) fun step' e => .inl (by
    obtain rfl : step = step' := Option.some.inj (h.current.symm.trans e)
    exact h.timed)

/-! ## The operations of an event -/

@[simp] theorem track_trackEvent (t : TrackId) (e : TrackEventKind) (cause : Option SafeCause) (tag : BitVec 16) (pos n : Nat) (s : State)
    (k : TrackId) : (trackEvent t e cause tag pos n s).track k = s.track k := by
  simp [trackEvent]

@[simp] theorem track_claimSafe (t k : TrackId) (s : State) : (claimSafe t s).track k = s.track k := by simp [claimSafe]

@[simp] theorem track_claimLevel (t k : TrackId) (mask value : BitVec 16) (s : State) :
    (claimLevel t mask value s).track k = s.track k := by simp [claimLevel]

@[simp] theorem track_enterSafe (t : TrackId) (cause : SafeCause) (origin : SafeFrom) (s : State) :
    (enterSafe t cause origin s).track t = (s.track t).toSafe cause origin := by
  simp [enterSafe_eq]

@[simp] theorem track_setRef (t : TrackId) (time : Time) (s : State) :
    (setRef t time s).track t = { s.track t with refTime := time } := by
  simp [setRef]

/-- What a stop leaves of its track: the records abandoned and the retire index at the post index. -/
theorem track_stopEffect (t : TrackId) (lines : StopLines) (s : State) :
    ∃ w, (stopEffect t lines s).track t = { (s.track t).abandon with retire := (s.track t).post, retireWrite := w } := by
  unfold stopEffect
  dsimp only
  rw [track_trackEvent]
  cases lines
  · rw [if_neg (by decide), track_setRetire, State.track_modTrack_self]
    exact ⟨_, rfl⟩
  · rw [if_pos rfl, track_claimSafe, track_setRetire, State.track_modTrack_self]
    exact ⟨_, rfl⟩

theorem track_flushEffect (t : TrackId) (s : State) :
    ∃ w, (flushEffect t s).track t = { (s.track t).abandon with
      retire := (s.track t).post, retireWrite := w, safeCause := none } := by
  unfold flushEffect
  dsimp only
  rw [track_trackEvent, track_setRetire, State.track_modTrack_self]
  exact ⟨_, rfl⟩

/-- The ring has a legal size and the post index lies in it: all that a stop asks of its track. -/
structure Track.Posted (c : Track) : Prop where
  size : PowerBetween 4 4096 c.sqSize
  post_lt : c.post < c.sqSize

theorem Track.Ring.toPosted {c : Track} (h : c.Ring) : c.Posted := ⟨h.size, h.post_lt⟩

theorem stopEffect_sound {t : TrackId} {s : State} (lines : StopLines) (h : (s.track t).Posted) :
    ((stopEffect t lines s).track t).sound := by
  obtain ⟨w, e⟩ := track_stopEffect t lines s
  rw [e]
  refine Track.timersSound.sound ?_ rfl ((ring_abandon h.size h.post_lt).congr rfl)
  simp [Track.timersSound, Track.abandon, Track.nextEpoch, Track.idleTimers]

theorem flushEffect_sound {t : TrackId} {s : State} (h : (s.track t).Posted) : ((flushEffect t s).track t).sound := by
  obtain ⟨w, e⟩ := track_flushEffect t s
  rw [e]
  refine Track.timersSound.sound ?_ rfl ((ring_abandon h.size h.post_lt).congr rfl)
  simp [Track.timersSound, Track.abandon, Track.nextEpoch, Track.idleTimers]

/-- A flow leaves its track sound at rest, or about to take its next record. -/
def Flow.SoundFor (t : TrackId) : Flow → Prop
  | .rest s => (s.track t).sound
  | .goOn s => (s.track t).Taking

theorem retireStep_sound {t : TrackId} {step : CurrentStep} {s : State} (o : StepOutcome) (h : (s.track t).Holding step) :
    (retireStep t step o s).SoundFor t := by
  obtain ⟨w, a, k, n, e⟩ := track_retired t step o s
  cases hq : (s.track t).stopReq with
  | none =>
    rw [retireStep_goesOn step o hq]
    refine { bound := ?_, start := ?_, ring := ?_, current := ?_ } <;> simp only [State.track_modTrack_self, e]
    · exact h.bound
    · exact h.start
    · exact (h.ring.retire h.current).congr rfl
  | some lines =>
    rw [retireStep_stops step o hq]
    exact stopEffect_sound lines (by rw [e]; exact ⟨h.ring.size, h.ring.post_lt⟩)

theorem endEffect_sound {t : TrackId} {step : CurrentStep} {s : State} (o : StepOutcome) (h : (s.track t).Holding step) :
    ((endEffect t step o s).track t).sound := by
  obtain ⟨w, a, k, n, e⟩ := track_ended t step o s
  rw [endEffect_eq]
  split
  · exact stopEffect_sound _ (by rw [e]; exact ⟨h.ring.size, h.ring.post_lt⟩)
  · rw [e]
    refine Track.timersSound.sound ?_ rfl ((h.ring.retire_closing h.current).congr rfl)
    simp [Track.timersSound, h.start]

/-- Another step at the place of the held one, of the same record: its due time, or its wait start, has been fixed. -/
theorem Track.Holding.replace {c : Track} {step step' : CurrentStep} (h : c.Holding step) (hp : step'.pos = step.pos)
    (hr : step'.record = step.record) : ({ c with current := some step' } : Track).Holding step' where
  bound := h.bound
  start := h.start
  ring := h.ring.replace_current h.current hp
  current := rfl
  timed := hr ▸ h.timed

/-- A change outside the ring, the state and the start time leaves the held step held. -/
theorem Track.Holding.congr {c d : Track} {step : CurrentStep} (h : c.Holding step) (hb : d.state = c.state)
    (hs : d.startTime = c.startTime) (e : d.ringPart = c.ringPart) : d.Holding step where
  bound := by simpa [Track.bound, hb] using h.bound
  start := hs.trans h.start
  ring := h.ring.congr e
  current := by
    simp only [Track.ringPart, Prod.mk.injEq] at e
    obtain ⟨-, -, -, -, -, hc, -, -⟩ := e
    exact hc.trans h.current
  timed := h.timed

theorem Track.Holding.setRef {t : TrackId} {step : CurrentStep} {s : State} (time : Time) (h : (s.track t).Holding step) :
    ((setRef t time s).track t).Holding step := by
  rw [track_setRef]
  exact h.congr rfl rfl rfl

theorem beginWait_sound {t : TrackId} {step : CurrentStep} {s : State} (h : (s.track t).Holding step) :
    (beginWait t step s).SoundFor t := by
  have h1 : ((s.modTrack t fun c => { c with current := some { step with waitStart := some s.time } }).track t).Holding
      { step with waitStart := some s.time } := by
    rw [State.track_modTrack_self]
    exact h.replace rfl rfl
  rcases beginWait_cases t step s with e | e <;> rw [e]
  · exact retireStep_sound _ (h1.setRef _)
  · simp only [Flow.SoundFor]
    rw [State.track_modTrack_self]
    exact h1.toInputWait_sound rfl

theorem takeEffect_sound {t : TrackId} {step : CurrentStep} {s : State} (late : Bool) (h : (s.track t).Holding step) :
    (takeEffect t step late s).SoundFor t := by
  unfold takeEffect
  dsimp only
  rcases h.timed with hk | hk | hk | hk <;> rw [hk] <;> dsimp only
  · exact retireStep_sound _ (Track.Holding.setRef _ (by rwa [track_claimLevel]))
  · exact retireStep_sound _ (h.setRef _)
  · exact beginWait_sound h
  · exact endEffect_sound _ h

theorem lateStep_sound {t : TrackId} {step : CurrentStep} {s : State} (h : (s.track t).Holding step) :
    (lateStep t step s).SoundFor t := by
  unfold lateStep
  split
  · exact takeEffect_sound _ h
  · split
    · exact takeEffect_sound _ h
    · exact retireStep_sound _ (h.setRef _)
  · simp only [Flow.SoundFor]
    rw [track_enterSafe]
    exact h.toSafe_sound _

theorem judge_sound {t : TrackId} {step : CurrentStep} {s : State} (h : (s.track t).Holding step) (hd : step.due.isSome = true) :
    (judge t step s).SoundFor t := by
  obtain ⟨d, hd⟩ := Option.isSome_iff_exists.mp hd
  unfold judge
  dsimp only
  split
  · simp only [Flow.SoundFor]
    rw [State.track_modTrack_self]
    exact h.toDue_sound (by rw [hd]; rfl)
  · split
    · exact takeEffect_sound _ h
    · exact lateStep_sound (by rw [State.track_modTrack_self]; exact h.congr rfl rfl rfl)

theorem fixAndJudge_sound {t : TrackId} {step : CurrentStep} {s : State} (d : Time) (h : (s.track t).Holding step) :
    (fixAndJudge t step d s).SoundFor t :=
  judge_sound (by rw [State.track_modTrack_self]; exact h.replace rfl rfl) rfl

/-! ## The chain of records (R29) -/

theorem enterEmpty_sound {t : TrackId} {s : State} (h : (s.track t).Taking) (hl : (s.track t).prefetch = []) :
    ((enterEmpty t s).track t).sound := by
  unfold enterEmpty
  rw [State.track_modTrack_self]
  exact h.toEmpty_sound hl

/-- What a passed check says of the record's kind (R21). -/
theorem checked_kind {n : Nat} {active : Bool} {r : StepRecord} (h : checkRecord n active r = none) :
    Timed r ∨ (recKind r = some .loop ∧ recCount r ≠ 0 ∧ active = false) ∨ (recKind r = some .next ∧ active = true) := by
  unfold Timed
  unfold checkRecord at h
  split at h
  · cases h
  · next hk => exact .inl (.inl hk)
  · next hk => exact .inl (.inr (.inl hk))
  · next hk => exact .inl (.inr (.inr (.inr hk)))
  · next hk => exact .inl (.inr (.inr (.inl hk)))
  · next hk => refine .inr (.inl ⟨hk, ?_⟩); split at h <;> simp_all
  · next hk => refine .inr (.inr ⟨hk, ?_⟩); split at h <;> simp_all

theorem Track.Taking.takeHead {c : Track} {e : Fetched} {rest : List Fetched} (h : c.Taking) (hp : c.prefetch = e :: rest) :
    (c.takeHead e rest).Underway := ⟨h.bound, h.start, h.ring.take_head h.current hp⟩

theorem Track.Taking.openLoop {c : Track} {e : Fetched} {rest : List Fetched} (h : c.Taking) (hp : c.prefetch = e :: rest)
    (hl : c.loop = none) (hn : recCount e.record ≠ 0) : ((c.takeHead e rest).openLoop e).Taking where
  bound := h.bound
  start := h.start
  ring := (h.ring.take_head h.current hp).open_loop rfl rfl hl hn
  current := rfl

theorem Track.Taking.jump {c : Track} {e : Fetched} {rest : List Fetched} {l : LoopCtx} (h : c.Taking) (hp : c.prefetch = e :: rest)
    (hl : c.loop = some l) (hr : 1 < l.remaining) : ((c.takeHead e rest).jump l).Taking where
  bound := h.bound
  start := h.start
  ring := (h.ring.take_head h.current hp).jump hl hr
  current := rfl

/-- The context that a closed loop leaves (R47). -/
theorem track_closeLoop (t : TrackId) (e : Fetched) (s : State) :
    ∃ w, (closeLoop t e s).track t = { s.track t with
      loop := none, current := none, retire := (s.track t).after e.pos, retireWrite := w } := by
  unfold closeLoop
  rw [track_setRetire, State.track_modTrack_self]
  exact ⟨_, rfl⟩

/-- Taking the next record, and those after it, ends with a sound track (R28, R29). -/
theorem takeNext_sound {t : TrackId} {s : State} (h : (s.track t).Taking) : ((takeNext t s).track t).sound := by
  generalize hes : (s.track t).prefetch = es
  induction es generalizing s with
  | nil =>
    rw [takeNext_empty hes]
    exact enterEmpty_sound h hes
  | cons e rest ih =>
    have carry : ∀ f : Flow, f.SoundFor t → f.KeepsList t rest → ((carryOn t f).track t).sound := by
      intro f hf hk
      cases f with
      | rest s2 => exact hf
      | goOn s2 => exact ih hf hk
    have h1 : ((s.setTrack t ((s.track t).takeHead e rest)).track t).Underway := by
      rw [State.track_setTrack_self]; exact h.takeHead hes
    cases hc : checkRecord (s.track t).lanes.length (s.track t).loop.isSome e.record with
    | some sub =>
      rw [takeNext_bad hes hc, track_enterSafe]
      exact h1.ring.toSafe_sound (by simp) fun _ _ => .inr rfl
    | none =>
      rcases checked_kind hc with ht | ⟨hk, hn, hl⟩ | ⟨hk, hl⟩
      · rw [takeNext_timed hes hc ht]
        refine carry _ (fixAndJudge_sound _ ?_) ?_
        · exact { h1 with current := by rw [State.track_setTrack_self]; rfl, timed := ht }
        · have hk := fixAndJudge_keepsList t ((s.track t).headStep e) (dueTime e.record (s.track t).refTime s.time)
            (s.setTrack t ((s.track t).takeHead e rest))
          rwa [State.track_setTrack_self] at hk
      · rw [takeNext_loop hes hc hk]
        exact ih (by rw [State.track_setTrack_self]; exact h.openLoop hes (by simpa using hl) hn) (by simp [Track.openLoop, Track.takeHead])
      · obtain ⟨l, hl⟩ := Option.isSome_iff_exists.mp hl
        by_cases hr : 1 < l.remaining
        · rw [takeNext_jump hes hc hk hl hr]
          exact enterEmpty_sound (by rw [State.track_setTrack_self]; exact h.jump hes hl hr) (by simp [Track.jump])
        · rw [takeNext_close hes hc hk hl hr]
          obtain ⟨w, e1⟩ := track_closeLoop t e (s.setTrack t ((s.track t).takeHead e rest))
          rw [State.track_setTrack_self] at e1 h1
          refine ih ?_ (by rw [e1]; rfl)
          rw [e1]
          exact { bound := h1.bound, start := h1.start, current := rfl
                  ring := (h1.ring.retire_closing (step := (s.track t).headStep e) rfl).congr rfl }

theorem carryOn_sound {t : TrackId} {f : Flow} (h : f.SoundFor t) : ((carryOn t f).track t).sound := by
  cases f with
  | rest s => exact h
  | goOn s => exact takeNext_sound h

end Sys2Proof.Machine
end

section
/-!
SUPPORT. The three invariants of every track through the events that reach a track from outside its own chain: fires, acceptances, the
track commands, reads and resets. What touches no track context is said first.
-/

namespace Sys2Proof.Machine

/-! ## Operations that touch no track -/

section NoTrack

variable (s : State) (k : TrackId)

@[simp] theorem track_sendMessage (v : VectorId) : (s.sendMessage v).track k = s.track k := by
  rw [sendMessage_eq]; rfl

@[simp] theorem track_sendFor (q : QueueId) : (sendFor q s).track k = s.track k := by simp [sendFor_eq]

@[simp] theorem track_countEntry (q : QueueId) : (countEntry q s).track k = s.track k := by
  unfold countEntry
  dsimp only
  split
  · rfl
  · split <;> simp [State.setIrq]

@[simp] theorem track_fatalMessage : (fatalMessage s).track k = s.track k := by
  unfold fatalMessage
  rw [track_sendMessage]
  rfl

@[simp] theorem track_applyInterruptSettings (q : QueueId) (enable : Bool) (v : VectorId) (n : Nat) (d : BitVec 16) :
    (applyInterruptSettings q enable v n d s).track k = s.track k := by
  unfold applyInterruptSettings
  dsimp only
  split
  · rfl
  · rfl
  · split <;> simp [State.setIrq]
  · split
    · simp [State.setIrq]
    · split
      · rfl
      · split <;> rfl

@[simp] theorem track_postReport (q : QueueId) (r : Report) : (postReport q r s).track k = s.track k := rfl

@[simp] theorem track_queueEvent (b : Byte) (body : ReportBody) : (queueEvent b body s).track k = s.track k := by
  simp [queueEvent]

@[simp] theorem track_moveRelease (q : QueueId) (r : Nat) : (moveRelease q r s).track k = s.track k := by
  unfold moveRelease
  dsimp only
  split <;> rfl

@[simp] theorem track_finishCommand (pos : Nat) : (finishCommand pos s).track k = s.track k := by
  unfold finishCommand
  dsimp only
  split <;> rfl

@[simp] theorem track_handAdminDone (h : InHand) (status : Status) (result : Option AdminResult) :
    (handAdminDone h status result s).track k = s.track k := by
  unfold handAdminDone
  dsimp only
  split
  · rfl
  · split
    · simp
    · rfl

@[simp] theorem track_postWaiting : (postWaiting s).track k = s.track k := by
  unfold postWaiting
  split
  · rfl
  · split
    · dsimp only
      split
      · rw [track_finishCommand]; rfl
      all_goals rfl
    · rfl

@[simp] theorem track_releaseSlots (q : QueueId) (index : BitVec 16) : (releaseSlots q index s).track k = s.track k := by
  unfold releaseSlots
  dsimp only
  split
  · split
    · rfl
    · split <;> simp
  · simp

@[simp] theorem track_endIfDrained : s.endIfDrained.track k = s.track k := by
  rw [endIfDrained_eq]; rfl

@[simp] theorem track_closeIfDrained (q : QueueId) : (closeIfDrained q s).track k = s.track k := by
  unfold closeIfDrained
  split
  · dsimp only
    split
    · split
      · rw [track_handAdminDone]; rfl
      · rfl
    all_goals rfl
  · rfl

@[simp] theorem track_settleReply (h : InHand) (reply : Reply) : (settleReply h reply s).track k = s.track k := by
  cases reply with
  | answer status result => exact track_handAdminDone s k h status result
  | write addr data => rfl
  | drain q result => rfl

@[simp] theorem track_afterOrder {α : Type} (xs : List α) : (s.afterOrder xs).track k = s.track k := by
  rw [afterOrder_eq]; rfl

@[simp] theorem track_captureAcceptance (l : LineId) (level : Level) (edge : Time) (delay : BitVec 16) :
    (captureAcceptance l level edge delay s).track k = s.track k := by
  unfold captureAcceptance
  dsimp only
  split
  · rfl
  · split <;> simp

@[simp] theorem track_claimBind (t : TrackId) (lanes : List LineId) (pattern : BitVec 16) :
    (claimBind t lanes pattern s).track k = s.track k := by simp [claimBind]

@[simp] theorem track_claimRelease (t : TrackId) : (claimRelease t s).track k = s.track k := by simp [claimRelease]

@[simp] theorem track_claimStatic (mask levels : BitVec 48) : (claimStatic mask levels s).track k = s.track k := by simp [claimStatic]

@[simp] theorem track_writeRun (run : Bool) : (writeRun run s).track k = s.track k := by
  unfold writeRun
  split
  · split
    · split <;> rfl
    · rfl
  · split
    · rfl
    · split
      · rfl
      · split <;> rfl
  · split <;> rfl
  · rfl
  · rfl

@[simp] theorem track_unmaskVector (v : VectorId) : (unmaskVector v s).track k = s.track k := by
  unfold unmaskVector
  dsimp only
  split
  · rw [track_sendMessage]; rfl
  · rfl

@[simp] theorem track_abandonUncarried : (abandonUncarried s).track k = s.track k := by
  unfold abandonUncarried
  split <;> rfl

end NoTrack

/-! ## What soundness says of a track -/

theorem Track.timersSound.start_none {c : Track} (h : c.timersSound) (hs : c.state ≠ .armed) : c.startTime = none := by
  obtain ⟨-, -, -, -, -, hstart, -⟩ := h
  cases hc : c.startTime with
  | none => rfl
  | some m => exact absurd (hstart.mp (by simp [hc])) hs

theorem Track.timersSound.current_none {c : Track} (h : c.timersSound)
    (hs : c.state ≠ .due ∧ c.state ≠ .inputWait ∧ c.state ≠ .paused ∧ c.state ≠ .safe) : c.current = none := by
  obtain ⟨-, -, -, -, -, -, -, -, -, hcur⟩ := h
  cases hc : c.current with
  | none => rfl
  | some step => have := (hcur step hc).1; simp_all

theorem Track.timersSound.timed {c : Track} {step : CurrentStep} (h : c.timersSound) (hc : c.current = some step)
    (hb : c.state = .safe → c.safeCause.any SafeCause.isBadStep = false) : Timed step.record := by
  obtain ⟨-, -, -, -, -, -, -, -, -, hcur⟩ := h
  obtain ⟨-, ht | ⟨hs, hbad⟩⟩ := hcur step hc
  · exact ht
  · simp [hb hs] at hbad

/-- A sound bound track that is not ARMED is as an event of its own needs it. -/
theorem Track.sound.underway {c : Track} (h : c.sound) (hb : c.state ≠ .unbound) (ha : c.state ≠ .armed) : c.Underway :=
  ⟨Track.bound_iff.mpr hb, h.timers.start_none ha, h.ring (Track.bound_iff.mpr hb)⟩

/-- A sound track in DUE, INPUT-WAIT, PAUSED or SAFE, there without BAD-STEP, holds its current step. -/
theorem Track.sound.holding {c : Track} {step : CurrentStep} (h : c.sound) (hc : c.current = some step)
    (hs : c.state = .due ∨ c.state = .inputWait ∨ c.state = .paused ∨ c.state = .safe)
    (hb : c.state = .safe → c.safeCause.any SafeCause.isBadStep = false) : c.Holding step where
  toUnderway := h.underway (by rcases hs with e | e | e | e <;> rw [e] <;> decide) (by rcases hs with e | e | e | e <;> rw [e] <;> decide)
  current := hc
  timed := h.timers.timed hc hb

/-! ## Events of one track -/

theorem forceSafe_sound {t : TrackId} {s : State} (cause : SafeCause) (h : (s.track t).sound) :
    ((forceSafe t cause s).track t).sound := by
  unfold forceSafe
  split
  · next hf =>
    simp only [Track.canEnterSafe, Bool.and_eq_true, decide_eq_true_eq, ne_eq] at hf
    obtain ⟨hu, hs⟩ := hf
    rw [track_enterSafe]
    refine (h.ring (Track.bound_iff.mpr hu)).toSafe_sound (fun ho => ?_) fun step hc => .inl (h.timers.timed hc (absurd · hs))
    refine h.timers.current_none ?_
    unfold Track.safeOrigin at ho
    split at ho
    · next e => rcases e with e | e <;> rw [e] <;> decide
    · cases ho
  · exact h

/-- An ARMED track that starts (R66). -/
theorem startTrack_sound {t : TrackId} {s : State} (start : Time) (h : (s.track t).sound) (ha : (s.track t).state = .armed) :
    ((startTrack t start s).track t).sound := by
  have hb : (s.track t).bound = true := Track.bound_iff.mpr (by rw [ha]; decide)
  refine takeNext_sound ?_
  rw [track_trackEvent, State.track_modTrack_self]
  exact { bound := hb, start := rfl, ring := (h.ring hb).congr rfl, current := h.timers.current_none (by rw [ha]; decide) }

theorem Track.Holding.idle {c : Track} {step : CurrentStep} (h : c.Holding step) : c.idleTimers.Holding step := h.congr rfl rfl rfl

theorem dueExpired_sound {t : TrackId} {s : State} {step : CurrentStep} (h : (s.track t).Holding step) :
    ((dueExpired t step s).track t).sound :=
  carryOn_sound (takeEffect_sound _ (by rw [State.track_modTrack_self]; exact h.idle))

/-- A held step that retires with the timers idle and a new reference time: the end of a wait (R42, R43). -/
theorem waitOver_sound {t : TrackId} {s : State} {step : CurrentStep} (o : StepOutcome) (time : Time) (h : (s.track t).Holding step) :
    ((carryOn t (retireStep t step o (setRef t time (s.modTrack t Track.idleTimers)))).track t).sound :=
  carryOn_sound (retireStep_sound _ (Track.Holding.setRef _ (by rw [State.track_modTrack_self]; exact h.idle)))

theorem timeoutExpired_sound {t : TrackId} {s : State} {step : CurrentStep} (h : (s.track t).Holding step) :
    ((timeoutExpired t step s).track t).sound := by
  unfold timeoutExpired
  split
  · rw [track_enterSafe]
    exact h.toSafe_sound _
  · exact waitOver_sound _ _ h

theorem waitAcceptance_sound {t : TrackId} {s : State} (l : LineId) (level : Level) (h : (s.track t).sound) :
    ((waitAcceptance t l level s).track t).sound := by
  unfold waitAcceptance
  split
  · next step hs hc =>
    split
    · split
      · exact waitOver_sound _ _ (h.holding hc (.inr (.inl hs)) (by simp [hs]))
      · exact h
    · exact h
  · exact h

theorem expireDue_sound {t : TrackId} {s : State} (h : (s.track t).sound) : ((expireDue t s).track t).sound := by
  unfold expireDue
  split
  · next step hs hc =>
    split
    · exact dueExpired_sound (h.holding hc (.inl hs) (by simp [hs]))
    · exact h
  · exact h

theorem expireTimeout_sound {t : TrackId} {s : State} (h : (s.track t).sound) : ((expireTimeout t s).track t).sound := by
  unfold expireTimeout
  split
  · next step hs hc =>
    split
    · exact timeoutExpired_sound (h.holding hc (.inr (.inl hs)) (by simp [hs]))
    · exact h
  · exact h

theorem expireHold_sound {t : TrackId} {s : State} (h : (s.track t).sound) : ((expireHold t s).track t).sound := by
  unfold expireHold
  split
  · next hs =>
    obtain ⟨hs, -⟩ := hs
    rw [track_enterSafe]
    exact (h.ring (Track.bound_iff.mpr (by rw [hs]; decide))).toSafe_sound (by simp)
      fun step hc => .inl (h.timers.timed hc (by simp [hs]))
  · exact h

theorem reachStart_sound {t : TrackId} {s : State} (h : (s.track t).sound) : ((reachStart t s).track t).sound := by
  unfold reachStart
  split
  · next start hs _ =>
    split
    · exact startTrack_sound _ h hs
    · exact h
  · exact h

/-! ## Track commands on one track -/

/-- The context that BIND-TRACK gives a track is sound (R61). -/
theorem boundTrack_sound (c : Track) {p : BindParams} {lanes : List LineId} {rq : QueueId} {policy : LatePolicy}
    (hs : PowerBetween 4 4096 p.sqSize.toNat) : (boundTrack c p lanes rq policy).sound := by
  have hlt : 0 < p.sqSize.toNat := by have := hs.1; omega
  have hst : ∀ r : ReadInFlight, (boundTrack c p lanes rq policy).read = some r → r.stale = true := by
    intro r e
    obtain ⟨r', -, rfl⟩ := Option.map_eq_some_iff.mp e
    rfl
  refine Track.timersSound.sound (by simp [Track.timersSound, boundTrack, Track.powerOn]) rfl ?_
  exact {
    size := hs, fetch_lt := hlt, post_lt := hlt, retire_lt := hlt, short := Nat.zero_le 8, consecutive := trivial
    pos_lt := by simp [boundTrack, Track.powerOn]
    loop := by simp [boundTrack, Track.powerOn]
    read := fun r e hf => absurd ((hst r e).symm.trans hf) (by decide)
    order := Nat.le_refl _
    readPosted := fun r e hf => absurd ((hst r e).symm.trans hf) (by decide)
    outside := fun _ => ringDist_self hlt
    inside := by simp [boundTrack, Track.powerOn]
    next := by simp [boundTrack, Track.powerOn] }

/-- An UNBOUND track says nothing of its ring. -/
theorem unbound_sound {c : Track} (ht : c.timersSound) (hb : c.state = .unbound) : c.sound :=
  have hn : ¬c.bound = true := by simp [Track.bound, hb]
  ⟨ht, fun h => absurd h hn, fun h => absurd h hn⟩

theorem unbind_sound {c : Track} (h : c.sound) (ha : c.state ≠ .armed) : c.unbind.sound :=
  unbound_sound (by simp [Track.timersSound, Track.unbind, Track.nextEpoch, Track.idleTimers, h.timers.start_none ha]) rfl

theorem afterReset_sound (c : Track) : c.afterReset.sound :=
  unbound_sound (by simp [Track.timersSound, Track.afterReset, Track.idleTimers]) rfl

theorem powerOn_sound : Track.powerOn.sound := unbound_sound (by simp [Track.timersSound, Track.powerOn]) rfl

theorem arm_sound {c : Track} (start : Time) (h : c.sound) (hs : c.state = .stopped) : (c.arm start).sound := by
  have hr := h.ring (Track.bound_iff.mpr (by rw [hs]; decide))
  obtain ⟨hdue, -, hwait, -, hhold, -⟩ := h.timers
  have hcur := h.timers.current_none (by rw [hs]; decide)
  refine Track.timersSound.sound ?_ rfl (hr.congr rfl)
  simp_all [Track.timersSound, Track.arm]

theorem pause_sound {c : Track} {p : PausedFrom} (h : c.sound) (hp : c.state.paused? = some p) :
    ({ c.idleTimers with state := .paused, pausedFrom := some p } : Track).sound := by
  have hs : (c.state = .due ∧ p = .due) ∨ (c.state = .inputWait ∧ p = .inputWait) ∨ (c.state = .empty ∧ p = .empty) := by
    cases hc : c.state <;> rw [hc] at hp <;> cases hp <;> simp
  have hu : c.Underway := by
    refine h.underway ?_ ?_ <;> rcases hs with ⟨e, -⟩ | ⟨e, -⟩ | ⟨e, -⟩ <;> rw [e] <;> decide
  have ht : ∀ step, c.current = some step → Timed step.record := fun step hc =>
    h.timers.timed hc (by rcases hs with ⟨e, -⟩ | ⟨e, -⟩ | ⟨e, -⟩ <;> simp [e])
  have hpf : c.current.isSome = true → p = .due ∨ p = .inputWait := by
    intro hc
    rcases hs with ⟨-, e⟩ | ⟨-, e⟩ | ⟨e, -⟩
    · exact .inl e
    · exact .inr e
    · simp [h.timers.current_none (by rw [e]; decide)] at hc
  refine Track.timersSound.sound ?_ rfl (hu.ring.congr rfl)
  simpa [Track.timersSound, Track.idleTimers, hu.start] using ⟨hpf, ht⟩

/-- A request to stop at the boundary is no matter of the invariants. -/
theorem stopReq_sound {c : Track} (lines : Option StopLines) (h : c.sound) : ({ c with stopReq := lines } : Track).sound := h

@[simp] theorem track_reportResumed (t k : TrackId) (s : State) : (reportResumed t s).track k = s.track k := by
  simp [reportResumed]

theorem rejudge_sound {t : TrackId} {s : State} {step : CurrentStep} (rebase : Bool) (h : (s.track t).Holding step) :
    ((rejudge t rebase step s).track t).sound := carryOn_sound (fixAndJudge_sound _ h)

theorem restartWait_sound {t : TrackId} {s : State} {step : CurrentStep} (h : (s.track t).Holding step) :
    ((restartWait t step s).track t).sound := carryOn_sound (beginWait_sound h)

theorem continuePaused_sound {t : TrackId} {s : State} (rebase : Bool) (h : (s.track t).sound) (hs : (s.track t).state = .paused) :
    ((continuePaused t rebase s).track t).sound := by
  have holding : ∀ step, (s.track t).current = some step → (s.track t).Holding step := fun step hc =>
    h.holding hc (.inr (.inr (.inl hs))) (by simp [hs])
  have hpf : (s.track t).current.isSome → (s.track t).pausedFrom = some .due ∨ (s.track t).pausedFrom = some .inputWait := by
    obtain ⟨-, -, -, -, -, -, -, -, hpf, -⟩ := h.timers
    exact hpf hs
  unfold continuePaused
  split
  · next step _ hc => exact rejudge_sound _ (holding step hc)
  · next step _ hc => exact restartWait_sound (holding step hc)
  · next h1 h2 =>
    refine takeNext_sound { h.underway (by rw [hs]; decide) (by rw [hs]; decide) with current := ?_ }
    cases hc : (s.track t).current with
    | none => rfl
    | some step =>
      rcases hpf (by rw [hc]; rfl) with e | e
      · exact (h1 step e hc).elim
      · exact (h2 step e hc).elim

/-- A CONTINUE of a track under way with a timed step, or none, held (R75). -/
theorem continueSafe_sound {t : TrackId} {s : State} (rebase : Bool) (h : (s.track t).Underway)
    (ht : ∀ step, (s.track t).current = some step → Timed step.record) : ((continueSafe t rebase s).track t).sound := by
  unfold continueSafe
  split
  · next hc => exact takeNext_sound { h with current := hc }
  · next step hc =>
    split
    · exact restartWait_sound { h with current := hc, timed := ht step hc }
    · exact rejudge_sound _ { h with current := hc, timed := ht step hc }

theorem continueTrack_sound {t : TrackId} {s : State} (rebase : Bool) (h : (s.track t).sound)
    (hs : (s.track t).state = .paused ∨ (s.track t).state = .safe)
    (hb : (s.track t).state = .safe → (s.track t).safeCause.any SafeCause.isBadStep = false) :
    ((continueTrack t rebase s).track t).sound := by
  have hu := h.underway (by rcases hs with e | e <;> rw [e] <;> decide) (by rcases hs with e | e <;> rw [e] <;> decide)
  unfold continueTrack
  dsimp only
  split
  · next hsafe =>
    have e1 : (reportResumed t (s.modTrack t fun c => { c with safeCause := none })).track t
        = { s.track t with safeCause := none } := by rw [track_reportResumed, State.track_modTrack_self]
    split
    · next hn =>
      obtain ⟨hdue, -, hwait, -, hhold, -, -, hnone, -⟩ := h.timers
      have hc := hnone hsafe hn
      rw [State.track_modTrack_self, e1]
      refine Track.timersSound.sound ?_ rfl (hu.ring.congr rfl)
      simp_all [Track.timersSound, hu.start]
    · refine continueSafe_sound rebase ?_ ?_ <;> rw [e1]
      · exact hu.congr rfl rfl rfl
      · exact fun step hc => h.timers.timed hc hb
  · next hsafe =>
    exact continuePaused_sound rebase (by rwa [track_reportResumed])
      (by rw [track_reportResumed]; exact hs.resolve_right hsafe)

/-! ## Step reads of one track -/

/-- A step read that is discarded leaves its track sound (R15). -/
theorem dropRead_sound {c : Track} (h : c.sound) : ({ c with read := none } : Track).sound := by
  by_cases hb : c.bound = true
  · exact Track.timersSound.sound h.timers hb (h.ring hb).drop_read
  · exact ⟨h.timers, fun e => absurd e hb, fun e => absurd e hb⟩

theorem join_ring {c : Track} {r : ReadInFlight} (data : Vector StepRecord 8) (h : c.sound) (hr : c.read = some r)
    (hs : r.stale = false) : (c.join r data).listSound ∧ (c.join r data).orderSound := by
  by_cases hb : c.bound = true
  · exact (ring_iff (c := c.join r data) hb).mpr ((h.ring hb).join data hr hs)
  · exact ⟨fun e => absurd e hb, fun e => absurd e hb⟩

/-- A step read that joins the list leaves a track that is not EMPTY sound (R14). -/
theorem join_sound {c : Track} {r : ReadInFlight} (data : Vector StepRecord 8) (h : c.sound) (hr : c.read = some r)
    (hs : r.stale = false) (he : c.state ≠ .empty) : (c.join r data).sound := by
  refine ⟨?_, join_ring data h hr hs⟩
  obtain ⟨h1, h2, h3, h4, h5, h6, -, h8, h9, h10⟩ := h.timers
  exact ⟨h1, h2, h3, h4, h5, h6, fun e => absurd e he, h8, h9, h10⟩

/-- Of an EMPTY track the joined list is taken up (R49). -/
theorem join_taking {c : Track} {r : ReadInFlight} (data : Vector StepRecord 8) (h : c.sound) (hr : c.read = some r)
    (hs : r.stale = false) (he : c.state = .empty) : (c.join r data).idleTimers.Taking where
  bound := Track.bound_iff.mpr (by rw [show (c.join r data).idleTimers.state = c.state from rfl, he]; decide)
  start := h.timers.start_none (by rw [he]; decide)
  ring := ((h.ring (Track.bound_iff.mpr (by rw [he]; decide))).join data hr hs).congr rfl
  current := h.timers.current_none (by rw [he]; decide)

/-! ## What the checks of the commands and of the arbiter grant -/

/-- The size that BIND-TRACK checks is a power of two from 4 to 4096 (R60). -/
theorem bindOperands_size {p : BindParams} {x : List LineId × QueueId × LatePolicy} (h : bindOperands p = some x) :
    PowerBetween 4 4096 p.sqSize.toNat := by
  unfold bindOperands at h
  split at h
  · cases h
  · split at h
    · split at h
      · next hs => exact (ringSizeOk_iff (by decide)).mp hs.2.1
      · cases h
    · cases h

/-- Past its second and third check START-TRACKS starts STOPPED tracks alone (R64): one that a fire of this moment has moved is held
by that fire's unit. -/
theorem stopped_of_startable {s : State} {t : TrackId} (h : startable s t = true) (hh : tripHolds s t = false) :
    (s.track t).state = .stopped := by
  simp only [startable, Bool.or_eq_true, decide_eq_true_eq] at h
  exact h.resolve_right fun hr => by simp [tripHolds_of_racedByFire hr] at hh

/-- The arbiter grants requesters alone (R13, R19). -/
theorem requester_of_grant {s : State} {t : TrackId} (h : grant s = some (.track t)) : (s.track t).requester = true := by
  unfold grant at h
  split at h
  · next k hk =>
    cases h
    have hq := List.find?_some hk
    exact (Bool.and_eq_true_iff.mp hq).1
  · split at h
    · cases h
    · obtain ⟨k, hk, e⟩ := Option.map_eq_some_iff.mp h
      cases e
      have hq := List.find?_some hk
      exact hq

/-- Tracks changed one after another, each once. -/
theorem track_foldl_modTrack (f : Track → Track) (ts : List TrackId) (hn : ts.Nodup) (s : State) (k : TrackId) :
    (ts.foldl (fun s' t => s'.modTrack t f) s).track k = if k ∈ ts then f (s.track k) else s.track k := by
  induction ts generalizing s with
  | nil => simp
  | cons t ts ih =>
    obtain ⟨ht, hn⟩ := List.nodup_cons.mp hn
    rw [List.foldl_cons, ih hn, State.track_modTrack]
    by_cases e : k = t
    · subst e; simp [ht]
    · simp [e]

end Sys2Proof.Machine
end

section
/-!
CERTIFICATE. Every command, and every tick, keeps the timers, the prefetch list and the ring order of every track sound (R1, R12, R13,
R27, R45).
-/

namespace Sys2Proof.Machine

/-- Every track is sound: the three invariants of the tracks together. -/
def State.tracksSound (s : State) : Prop := ∀ t, (s.track t).sound

theorem tracksSound_iff {s : State} : s.tracksSound ↔ s.timersSound ∧ s.listsSound ∧ s.ordersSound :=
  ⟨fun h => ⟨fun t => (h t).1, fun t => (h t).2.1, fun t => (h t).2.2⟩, fun h t => ⟨h.1 t, h.2.1 t, h.2.2 t⟩⟩

namespace State.tracksSound

/-- An operation that touches no track keeps every track sound. -/
theorem of_tracks {s s' : State} (h : s.tracksSound) (e : ∀ k, s'.track k = s.track k) : s'.tracksSound := fun k => e k ▸ h k

/-- An operation of one track that leaves that track sound. -/
theorem of_track {s s' : State} (t : TrackId) (h : s.tracksSound)
    (ho : (∀ k, k ≠ t → s'.track k = s.track k) ∧ s'.trips = s.trips) (ht : (s'.track t).sound) : s'.tracksSound := fun k =>
  if e : k = t then e ▸ ht else ho.1 k e ▸ h k

theorem setTrack {s : State} {c : Track} (t : TrackId) (h : s.tracksSound) (hc : c.sound) : (s.setTrack t c).tracksSound :=
  h.of_track t ⟨fun _ hk => s.track_setTrack_ne c hk, rfl⟩ (by rwa [State.track_setTrack_self])

/-! ## Fires and acceptances -/

theorem forceSafe {s : State} (t : TrackId) (cause : SafeCause) (h : s.tracksSound) : (forceSafe t cause s).tracksSound :=
  h.of_track t ((otherTrack_trackClosed s t).forceSafe cause ⟨fun _ _ => rfl, rfl⟩) (forceSafe_sound cause (h t))

theorem fire {s : State} (u : UnitId) (cause : FireCause) (edge : Option Time) (tag : BitVec 16) (h : s.tracksSound) :
    (fire u cause edge tag s).tracksSound :=
  (foldl_keeps (P := State.tracksSound) _ (fun _ t h => h.forceSafe t _) _
    (h.of_tracks fun k => by rw [track_afterOrder]; rfl)).of_tracks (handReport_track _ _ _)

theorem waitAcceptance {s : State} (t : TrackId) (l : LineId) (level : Level) (h : s.tracksSound) :
    (waitAcceptance t l level s).tracksSound :=
  h.of_track t ((otherTrack_trackClosed s t).waitAcceptance l level ⟨fun _ _ => rfl, rfl⟩) (waitAcceptance_sound l level (h t))

theorem consume {s : State} (l : LineId) (level : Level) (edge : Time) (delay : BitVec 16) (x : Consumer) (h : s.tracksSound) :
    (consume l level edge delay s x).tracksSound := by
  cases x with
  | capture => exact h.of_tracks fun k => track_captureAcceptance s k l level edge delay
  | trip u =>
    change (tripAcceptance u l level edge s).tracksSound
    unfold tripAcceptance
    dsimp only
    split
    · exact h.fire u _ _ _
    · exact h
  | track t => exact h.waitAcceptance t l level

theorem acceptance {s : State} (l : LineId) (level : Level) (edge : Time) (delay : BitVec 16) (h : s.tracksSound) :
    (acceptance l level edge delay s).tracksSound :=
  foldl_keeps (P := State.tracksSound) _ (fun _ x h => h.consume l level edge delay x) _
    (h.of_tracks fun k => by rw [track_afterOrder]; rfl)

theorem samplePin {s : State} (l : LineId) (level : Level) (h : s.tracksSound) : (samplePin l level s).tracksSound := by
  unfold Machine.samplePin
  dsimp only
  split
  · exact h
  · unfold rawChanged
    dsimp only
    split
    · exact acceptance l _ _ _ (h.of_tracks fun _ => rfl)
    · split
      · exact h
      · exact h

theorem expireWindow {s : State} (l : LineId) (h : s.tracksSound) : (expireWindow l s).tracksSound := by
  unfold Machine.expireWindow
  split
  · split
    · exact acceptance l _ _ _ (h.of_tracks fun _ => rfl)
    · exact h
  · exact h

theorem applyWindow {s : State} (l : LineId) (h : s.tracksSound) : (applyWindow l s).tracksSound := by
  unfold Machine.applyWindow
  dsimp only
  split
  · exact h
  · split
    · exact acceptance l _ _ _ (h.of_tracks fun _ => rfl)
    · exact h

theorem applySetLine {s : State} (l : LineId) (m : LineMode) (level : Level) (safe : SafeMode) (window : BitVec 16)
    (capture : CaptureMode) (rq : QueueId) (interval : Bool) (h : s.tracksSound) :
    (applySetLine l m level safe window capture rq interval s).tracksSound := by
  unfold Machine.applySetLine
  dsimp only
  generalize (if (s.line l).mode = .off ∧ m ≠ .off then _ else _) = c
  have h3 : (if m ≠ .off ∧ (s.line l).window ≠ window then Machine.applyWindow l (s.setLine l c) else s.setLine l c).tracksSound := by
    split
    · exact applyWindow l (h.of_tracks fun _ => rfl)
    · exact h
  split
  · exact h3
  · exact h3

/-! ## The commands that the admin engine takes -/

theorem setLineEffect {s : State} (p : SetLineParams) (h : s.tracksSound) : (setLineEffect p s).2.tracksSound := by
  unfold Machine.setLineEffect
  split
  · exact h
  · split
    · dsimp only
      split
      · exact h
      · split
        · exact h
        · split
          · exact h
          · exact h.applySetLine _ _ _ _ _ _ _ _
    · exact h

theorem setStaticEffect {s : State} (mask levels : BitVec 48) (h : s.tracksSound) : (setStaticEffect mask levels s).2.tracksSound := by
  unfold Machine.setStaticEffect
  split
  · exact h
  · exact h.of_tracks fun k => track_claimStatic s k mask levels

theorem snapshotEffect {s : State} (buffer : Addr) (clear : Bool) (h : s.tracksSound) : (snapshotEffect buffer clear s).2.tracksSound := by
  unfold Machine.snapshotEffect
  split
  · exact h
  · cases clear
    · exact h
    · exact h.of_tracks fun k => by simp

theorem bindTrackEffect {s : State} (p : BindParams) (h : s.tracksSound) : (bindTrackEffect p s).2.tracksSound := by
  unfold Machine.bindTrackEffect
  split
  · exact h
  · split
    · exact h
    · split
      · exact h
      · next hx =>
        split
        · exact h
        · split
          · exact h
          · exact (h.setTrack _ (boundTrack_sound _ (bindOperands_size hx))).of_tracks fun k => track_claimBind _ k _ _ _

theorem unbindTrackEffect {s : State} (track : Byte) (h : s.tracksSound) : (unbindTrackEffect track s).2.tracksSound := by
  unfold Machine.unbindTrackEffect
  split
  · exact h
  · next t _ =>
    split
    · next hs =>
      exact (h.setTrack t (unbind_sound (h t) (by rcases hs with e | e <;> rw [e] <;> decide))).of_tracks
        fun k => track_claimRelease _ k _
    · exact h

/-- Tracks started one after another, each of them ARMED and so left by the starts of the others (R66). -/
theorem startTrack_all {s : State} (start : Time) (ts : List TrackId) (hn : ts.Nodup) (h : s.tracksSound)
    (ha : ∀ t ∈ ts, (s.track t).state = .armed) : (ts.foldl (fun s' t => startTrack t start s') s).tracksSound := by
  induction ts generalizing s with
  | nil => exact h
  | cons t ts ih =>
    obtain ⟨ht, hn⟩ := List.nodup_cons.mp hn
    have ho := (otherTrack_trackClosed s t).startTrack start ⟨fun _ _ => rfl, rfl⟩
    refine ih hn (h.of_track t ho (startTrack_sound start (h t) (ha t List.mem_cons_self))) fun k hk => ?_
    rw [ho.1 k fun e => ht (e ▸ hk)]
    exact ha k (List.mem_cons_of_mem t hk)

theorem startTracksEffect {s : State} (mask mode : Byte) (start : Time) (h : s.tracksSound) :
    (startTracksEffect mask mode start s).2.tracksSound := by
  unfold Machine.startTracksEffect
  split
  · exact h
  · next isAt _ =>
    dsimp only
    have hn : (maskTracks mask).Nodup := (List.nodup_finRange 8).filter _
    generalize (if isAt = true then start else s.time) = moment
    split
    · exact h
    · split
      · exact h
      · split
        · exact h
        · split
          · exact h
          · next hstart hheld _ =>
            simp only [List.any_eq_true, Bool.not_eq_true', not_exists, not_and, Bool.not_eq_true, Bool.not_eq_false] at hstart hheld
            have hstopped : ∀ t ∈ maskTracks mask, (s.track t).state = .stopped := fun t ht =>
              stopped_of_startable (hstart t ht) (hheld t ht)
            have htrack := track_foldl_modTrack (fun c => c.arm moment) (maskTracks mask) hn s
            generalize (maskTracks mask).foldl (fun s' t => s'.modTrack t fun c => c.arm moment) s = s1 at htrack
            have harmed : ∀ t ∈ maskTracks mask, (s1.track t).state = .armed := fun t ht => by
              rw [htrack, if_pos ht]; rfl
            have h1 : s1.tracksSound := fun k => by
              rw [htrack]
              split
              · next hk => exact arm_sound moment (h k) (hstopped k hk)
              · exact h k
            split
            · refine startTrack_all moment _ ((freeOrder_perm s1 _).nodup_iff.mpr hn) (h1.of_tracks fun k => track_afterOrder s1 k _) ?_
              intro t ht
              rw [track_afterOrder]
              exact harmed t ((mem_freeOrder s1 _).mp ht)
            · exact h1

theorem stopTrackEffect {s : State} (track timing lines : Byte) (h : s.tracksSound) :
    (stopTrackEffect track timing lines s).2.tracksSound := by
  unfold Machine.stopTrackEffect
  split
  · exact h
  · next t _ =>
    dsimp only
    split
    · exact h
    · next hs =>
      have hb : (s.track t).bound = true := Track.bound_iff.mpr fun e => hs (.inl e)
      split
      · split
        · exact h.setTrack t (stopReq_sound _ (h t))
        · exact h.of_track t ((otherTrack_trackClosed s t).stopEffect _ ⟨fun _ _ => rfl, rfl⟩)
            (stopEffect_sound _ ((h t).ring hb).toPosted)
      · exact h

theorem pauseTrackEffect {s : State} (track : Byte) (h : s.tracksSound) : (pauseTrackEffect track s).2.tracksSound := by
  unfold Machine.pauseTrackEffect
  split
  · exact h
  · next t _ =>
    split
    · exact h
    · next p hp => exact h.setTrack t (pause_sound (h t) hp)

theorem resumeTrackEffect {s : State} (track action choice : Byte) (h : s.tracksSound) :
    (resumeTrackEffect track action choice s).2.tracksSound := by
  unfold Machine.resumeTrackEffect
  split
  · exact h
  · next t _ =>
    dsimp only
    split
    · exact h
    · next hs =>
      have hs : (s.track t).state = .paused ∨ (s.track t).state = .safe := by
        by_contra hc
        exact hs (not_or.mp hc)
      split
      · exact h.of_track t ((otherTrack_trackClosed s t).flushEffect ⟨fun _ _ => rfl, rfl⟩)
          (flushEffect_sound ((h t).ring (Track.bound_iff.mpr (by rcases hs with e | e <;> rw [e] <;> decide))).toPosted)
      · split
        · exact h
        · split
          · exact h
          · next hbad =>
            exact h.of_track t ((otherTrack_trackClosed s t).continueTrack _ ⟨fun _ _ => rfl, rfl⟩)
              (continueTrack_sound _ (h t) hs fun e => by simpa using fun hx => hbad ⟨e, hx⟩)
      · exact h

theorem trackStatusEffect {s : State} (track : Byte) (buffer : Addr) (h : s.tracksSound) :
    (trackStatusEffect track buffer s).2.tracksSound := by
  unfold Machine.trackStatusEffect
  split
  · exact h
  · split <;> exact h

theorem createRqEffect {s : State} (p : CreateRqParams) (h : s.tracksSound) : (createRqEffect p s).2.tracksSound := by
  unfold Machine.createRqEffect
  split
  · exact h
  · split
    · exact h
    · split
      · split
        · exact h.of_tracks fun _ => rfl
        · exact h
      · exact h

theorem deleteRqEffect {s : State} (queue : Byte) (h : s.tracksSound) : (deleteRqEffect queue s).2.tracksSound := by
  unfold Machine.deleteRqEffect
  split
  · exact h
  · dsimp only
    split
    · exact h
    · split
      · exact h
      · split
        · exact h.of_tracks fun _ => rfl
        · exact h.of_tracks fun _ => rfl

theorem setRqInterruptEffect {s : State} (p : RqInterruptParams) (h : s.tracksSound) : (setRqInterruptEffect p s).2.tracksSound := by
  unfold Machine.setRqInterruptEffect
  split
  · exact h
  · split
    · exact h
    · split
      · split
        · exact h
        · exact h.of_tracks fun k => track_applyInterruptSettings s k _ _ _ _ _
      · exact h

theorem setTripEffect {s : State} (p : SetTripParams) (h : s.tracksSound) : (setTripEffect p s).2.tracksSound := by
  unfold Machine.setTripEffect
  split
  · exact h
  · next u _ =>
    split
    · split
      · exact h
      · dsimp only
        generalize hs1 : s.setTrip u _ = s1
        have h1 : s1.tracksSound := hs1 ▸ h.of_tracks fun _ => rfl
        split
        · exact h1.fire u .level none 0
        · exact h1
    · exact h

theorem clearTripEffect {s : State} (unit : Byte) (h : s.tracksSound) : (clearTripEffect unit s).2.tracksSound := by
  unfold Machine.clearTripEffect
  split
  · exact h
  · split
    · exact h
    · split <;> exact h

theorem fireTripEffect {s : State} (id : BitVec 16) (unit : Byte) (h : s.tracksSound) : (fireTripEffect id unit s).2.tracksSound := by
  unfold Machine.fireTripEffect
  split
  · exact h
  · split
    · exact h
    · exact h.fire _ _ _ _

theorem identifyEffect {s : State} (buffer : Addr) (h : s.tracksSound) : (identifyEffect buffer s).2.tracksSound := by
  unfold Machine.identifyEffect
  split <;> exact h

/-- The effect of every command keeps every track sound (R170). -/
theorem commandEffect {s : State} (id : BitVec 16) (c : Command) (h : s.tracksSound) : (commandEffect id c s).2.tracksSound := by
  cases c with
  | identify buffer => exact h.identifyEffect buffer
  | setLine p => exact h.setLineEffect p
  | setStatic mask levels => exact h.setStaticEffect mask levels
  | snapshot buffer clear => exact h.snapshotEffect buffer clear
  | bindTrack p => exact h.bindTrackEffect p
  | unbindTrack track => exact h.unbindTrackEffect track
  | startTracks mask mode start => exact h.startTracksEffect mask mode start
  | stopTrack track timing lines => exact h.stopTrackEffect track timing lines
  | pauseTrack track => exact h.pauseTrackEffect track
  | resumeTrack track action choice => exact h.resumeTrackEffect track action choice
  | trackStatus track buffer => exact h.trackStatusEffect track buffer
  | createRq p => exact h.createRqEffect p
  | deleteRq queue => exact h.deleteRqEffect queue
  | setRqInterrupt p => exact h.setRqInterruptEffect p
  | setTrip p => exact h.setTripEffect p
  | clearTrip unit => exact h.clearTripEffect unit
  | fireTrip unit => exact h.fireTripEffect id unit
  | unknown opcode => exact h

theorem completeCommandRead {s : State} (id : BitVec 16) (c : Command) (h : s.tracksSound) :
    (completeCommandRead id c s).tracksSound := by
  unfold Machine.completeCommandRead
  split
  · exact h
  · dsimp only
    split
    · exact h.of_tracks fun k => track_endIfDrained _ k
    · split
      · exact (commandEffect (s := s.dropRead .admin) id c (h.of_tracks fun _ => rfl)).of_tracks
          fun k => track_settleReply _ k _ _
      all_goals exact h

/-! ## Reads and writes that complete -/

theorem enterFaulted {s : State} (cause : FaultCause) (h : s.tracksSound) : (enterFaulted cause s).tracksSound := by
  unfold Machine.enterFaulted
  split
  · dsimp only
    have h2 : ((List.finRange 8).foldl (fun s' t => Machine.forceSafe t .deviceFault s')
        { s with port := { s.port with dev := .faulted, faultCause := cause }, waiting := none }).tracksSound :=
      foldl_keeps (P := State.tracksSound) _ (fun _ t h => h.forceSafe t _) _ (h.of_tracks fun _ => rfl)
    generalize (List.finRange 8).foldl (fun s' t => Machine.forceSafe t .deviceFault s') _ = s2 at h2
    exact h2.of_tracks fun k => (track_fatalMessage _ k).trans (State.setEngine_track s2 .idleWait k)
  · exact h

theorem completeStepRead {s : State} (t : TrackId) (data : Vector StepRecord 8) (h : s.tracksSound) :
    (completeStepRead t data s).tracksSound := by
  unfold Machine.completeStepRead
  split
  · exact h
  · have h1 : (s.dropRead (.track t)).tracksSound := h.of_tracks fun _ => rfl
    generalize s.dropRead (.track t) = s1 at h1
    dsimp only
    split
    · exact h1.of_tracks fun k => track_endIfDrained _ k
    · split
      · exact h1
      · next r hr =>
        split
        · exact h1.setTrack t (dropRead_sound (h1 t))
        · next hs =>
          have hs : r.stale = false := by simpa using hs
          split
          · next he =>
            rw [State.track_modTrack_self] at he
            have C := otherTrack_trackClosed s1 t
            refine h1.of_track t (C.takeNext (C.idle (C.modTrack (sameBinding_keep rfl rfl) ⟨fun _ _ => rfl, rfl⟩))) (takeNext_sound ?_)
            rw [State.track_modTrack_self, State.track_modTrack_self]
            exact join_taking data (h1 t) hr hs he
          · next he =>
            rw [State.track_modTrack_self] at he
            exact h1.setTrack t (join_sound data (h1 t) hr hs he)

theorem failStepRead {s : State} (t : TrackId) (h : s.tracksSound) : (failStepRead t s).tracksSound := by
  unfold Machine.failStepRead
  split
  · exact h
  · have h1 : (s.dropRead (.track t)).tracksSound := h.of_tracks fun _ => rfl
    generalize s.dropRead (.track t) = s1 at h1
    dsimp only
    split
    · exact h1.of_tracks fun k => track_endIfDrained _ k
    · split
      · exact h1
      · have h2 := h1.setTrack t (dropRead_sound (h1 t))
        split
        · exact h2
        · exact h2.forceSafe t _

theorem failCommandRead {s : State} (h : s.tracksSound) : (failCommandRead s).tracksSound := by
  unfold Machine.failCommandRead
  split
  · exact h
  · have h1 : (s.dropRead .admin).tracksSound := h.of_tracks fun _ => rfl
    generalize s.dropRead .admin = s1 at h1
    dsimp only
    split
    · exact h1.of_tracks fun k => track_endIfDrained _ k
    · split
      · exact h1.enterFaulted _
      all_goals exact h1

theorem timeoutRead {s : State} (who : Requester) (h : s.tracksSound) : (timeoutRead who s).tracksSound := by
  unfold Machine.timeoutRead
  split
  · exact h
  · split
    · cases who with
      | track t => exact h.failStepRead t
      | admin => exact h.failCommandRead
    · exact h

theorem writeRetireWord {s : State} (t : TrackId) (h : s.tracksSound) : (writeRetireWord t s).tracksSound :=
  (h.setTrack t (show ({ s.track t with retireWrite := some ⟨(s.track t).retire, false⟩ } : Track).sound from h t)).of_tracks
    fun _ => rfl

theorem completeRetireWord {s : State} (t : TrackId) (error : Bool) (h : s.tracksSound) : (completeRetireWord t error s).tracksSound := by
  unfold Machine.completeRetireWord
  split
  · exact h
  · have h1 : (s.dropWrite (WritePurpose.isRetireWordOf t)).tracksSound := h.of_tracks fun _ => rfl
    generalize s.dropWrite (WritePurpose.isRetireWordOf t) = s1 at h1
    have h2 : (s1.modTrack t fun c => { c with retireWrite := none }).tracksSound :=
      h1.setTrack t (show ({ s1.track t with retireWrite := none } : Track).sound from h1 t)
    dsimp only
    split
    · exact h1.of_tracks fun k => track_endIfDrained _ k
    · split
      · exact h1
      · split
        · unfold afterEarlierWrite
          dsimp only
          split
          · exact h2.writeRetireWord t
          · exact h2
        · split
          · exact h2.forceSafe t _
          · split
            · exact h2.writeRetireWord t
            · exact h2

theorem completeEntry {s : State} (q : QueueId) (h : s.tracksSound) : (completeEntry q s).tracksSound := by
  refine h.of_tracks fun k => ?_
  unfold Machine.completeEntry
  split
  · rfl
  · dsimp only
    split
    · exact track_endIfDrained _ k
    · rw [track_closeIfDrained]
      split
      · rw [track_countEntry]; rfl
      · rfl

theorem failEntry {s : State} (q : QueueId) (h : s.tracksSound) : (failEntry q s).tracksSound := by
  unfold Machine.failEntry
  split
  · exact h
  · have h1 : (s.dropWrite (WritePurpose.isEntryOf q)).tracksSound := h.of_tracks fun _ => rfl
    generalize s.dropWrite (WritePurpose.isEntryOf q) = s1 at h1
    have h2 : (lowerInFlight q s1).tracksSound := h1.of_tracks fun _ => rfl
    dsimp only
    split
    · exact h1.of_tracks fun k => track_endIfDrained _ k
    · generalize lowerInFlight q s1 = s2 at h2
      split
      · exact h2.of_tracks fun k => track_closeIfDrained _ k _
      · split
        · exact h2.enterFaulted _
        · split
          · exact h2.of_tracks fun k => by rw [track_closeIfDrained, track_queueEvent]; rfl
          · exact h2.of_tracks fun k => track_closeIfDrained _ k _

theorem completeBuffer {s : State} (error : Bool) (h : s.tracksSound) : (completeBuffer error s).tracksSound := by
  refine h.of_tracks fun k => ?_
  unfold Machine.completeBuffer
  split
  · rfl
  · dsimp only
    split
    · exact track_endIfDrained _ k
    · split
      · exact track_handAdminDone _ k _ _ _
      all_goals rfl

/-! ## The timed events of a track -/

theorem reachStart {s : State} (t : TrackId) (h : s.tracksSound) : (reachStart t s).tracksSound := by
  refine h.of_track t ?_ (reachStart_sound (h t))
  unfold Machine.reachStart
  split
  · split
    · exact (otherTrack_trackClosed s t).startTrack _ ⟨fun _ _ => rfl, rfl⟩
    · exact ⟨fun _ _ => rfl, rfl⟩
  · exact ⟨fun _ _ => rfl, rfl⟩

theorem expireDue {s : State} (t : TrackId) (h : s.tracksSound) : (expireDue t s).tracksSound := by
  refine h.of_track t ?_ (expireDue_sound (h t))
  unfold Machine.expireDue
  split
  · split
    · exact (otherTrack_trackClosed s t).dueExpired _ ⟨fun _ _ => rfl, rfl⟩
    · exact ⟨fun _ _ => rfl, rfl⟩
  · exact ⟨fun _ _ => rfl, rfl⟩

theorem expireTimeout {s : State} (t : TrackId) (h : s.tracksSound) : (expireTimeout t s).tracksSound := by
  refine h.of_track t ?_ (expireTimeout_sound (h t))
  unfold Machine.expireTimeout
  split
  · split
    · exact (otherTrack_trackClosed s t).timeoutExpired _ ⟨fun _ _ => rfl, rfl⟩
    · exact ⟨fun _ _ => rfl, rfl⟩
  · exact ⟨fun _ _ => rfl, rfl⟩

theorem expireHold {s : State} (t : TrackId) (h : s.tracksSound) : (expireHold t s).tracksSound := by
  refine h.of_track t ?_ (expireHold_sound (h t))
  unfold Machine.expireHold
  split
  · exact (otherTrack_trackClosed s t).enterSafe _ _ ⟨fun _ _ => rfl, rfl⟩
  · exact ⟨fun _ _ => rfl, rfl⟩

/-! ## The host and the fetch unit -/

theorem issueGrant {s : State} (h : s.tracksSound) : (issueGrant s).tracksSound := by
  unfold Machine.issueGrant
  split
  · exact h
  · split
    · next t hg =>
      have hq := requester_of_grant hg
      simp only [Track.requester, Track.canEnterSafe, Bool.and_eq_true, decide_eq_true_eq, Config.prefetchPlaces] at hq
      obtain ⟨⟨⟨⟨hu, -⟩, hl⟩, -⟩, -⟩ := hq
      have hb : (s.track t).bound = true := Track.bound_iff.mpr hu
      have hc : ({ s.track t with read := some ⟨(s.track t).fetch, (s.track t).readLength, false⟩ } : Track).sound :=
        Track.timersSound.sound (h t).timers hb (((h t).ring hb).issue_read (of_decide_eq_true hl))
      exact (h.setTrack t hc).of_tracks fun _ => rfl
    · exact h.of_tracks fun _ => rfl
    · exact h

theorem writePost {s : State} (selector : BitVec 4) (index : BitVec 16) (h : s.tracksSound) : (writePost selector index s).tracksSound := by
  unfold Machine.writePost
  dsimp only
  split
  · exact h
  · split
    · split
      · exact h.of_tracks fun _ => rfl
      · exact h.of_tracks fun k => track_queueEvent _ k _ _
    · split
      · split
        · next hok =>
          obtain ⟨hb, hok⟩ := hok
          exact h.setTrack _ (Track.timersSound.sound (h _).timers hb (((h _).ring hb).post hok))
        · exact h.of_tracks fun k => track_queueEvent _ k _ _
      · exact h.of_tracks fun k => track_queueEvent _ k _ _

theorem writeRlse {s : State} (queue : BitVec 4) (index : BitVec 16) (h : s.tracksSound) : (writeRlse queue index s).tracksSound := by
  refine h.of_tracks fun k => ?_
  unfold Machine.writeRlse
  split
  · rfl
  · split
    · exact track_releaseSlots _ k _ _
    · exact track_queueEvent _ k _ _

theorem resetBlocks {s : State} : (resetBlocks s).tracksSound := fun k => by
  rw [track_resetBlocks]
  exact afterReset_sound _

theorem softReset {s : State} (h : s.tracksSound) : (softReset s).tracksSound := by
  unfold Machine.softReset
  split
  · exact h
  · exact resetBlocks.of_tracks fun k => (track_endIfDrained _ k).trans (track_abandonUncarried _ k)

theorem hardReset {s : State} (h : s.tracksSound) : (hardReset s).tracksSound := by
  unfold Machine.hardReset
  split
  · exact h.of_tracks fun k => (track_endIfDrained _ k).trans rfl
  · have hb : (Machine.resetBlocks s).tracksSound := resetBlocks
    generalize Machine.resetBlocks s = b at hb
    exact hb.of_tracks fun k => (track_endIfDrained _ k).trans rfl

theorem writeRegister {s : State} (offset : BitVec 32) (width : AccessWidth) (value : BitVec 32) (h : s.tracksSound) :
    (writeRegister offset width value s).tracksSound := by
  unfold Machine.writeRegister
  split
  · exact h
  · exact h
  · split
    · split
      · exact h
      · split
        · exact h.softReset
        · exact h.of_tracks fun k => track_writeRun _ k _
    · split
      · exact h.writePost _ _
      · split
        · exact h.writeRlse _ _
        · split <;> exact h

theorem powerOn (s : State) : (powerOn s).tracksSound := fun k => by
  have e : (Machine.powerOn s).track k = Track.powerOn := by simp [Machine.powerOn, State.reset, State.track]
  rw [e]
  exact powerOn_sound

/-- Every command keeps every track sound. -/
theorem exec {s t : State} {c : Instr} (h : s.tracksSound) (hx : exec c s = .next t) : t.tracksSound := by
  cases c <;> (have e := Host.Outcome.next.inj hx; subst e)
  case powerOn => exact powerOn s
  case portReset => exact h.hardReset
  case ctrlReset run => exact h.softReset
  case ctrlRun run => exact h.of_tracks fun k => track_writeRun s k run
  case post selector index => exact h.writePost selector index
  case rlse queue index => exact h.writeRlse queue index
  case timlRead => exact h.of_tracks fun _ => rfl
  case registerWrite offset width value => exact h.writeRegister offset width value
  case readIssue => exact h.issueGrant
  case stepReadCompletion k data => exact h.completeStepRead k data
  case stepReadError k => exact h.failStepRead k
  case readTimeout who => exact h.timeoutRead who
  case adminReadCompletion record => exact h.completeCommandRead _ _
  case unknownOpcode id opcode =>
    split
    · exact h
    · exact h.completeCommandRead _ _
  case adminReadError => exact h.failCommandRead
  case bufferWriteCompletion error => exact h.completeBuffer error
  case startTimeReached k => exact h.reachStart k
  case dueTimerExpiry k => exact h.expireDue k
  case timeoutTimerExpiry k => exact h.expireTimeout k
  case holdTimerExpiry k => exact h.expireHold k
  case retireWordWriteDone k => exact h.completeRetireWord k false
  case retireWordWriteError k => exact h.completeRetireWord k true
  case rawChange l level => exact h.samplePin l level
  case windowExpiry l => exact h.expireWindow l
  case entryWriteCompletion q => exact h.completeEntry q
  case entryWriteError q => exact h.failEntry q
  case delayTimerExpiry q =>
    split
    · exact h.of_tracks fun k => track_sendFor s k q
    · exact h
  case vectorUnmask v => exact h.of_tracks fun k => track_unmaskVector s k v
  case vectorMask v => exact h.of_tracks fun _ => rfl
  all_goals exact h.completeCommandRead _ _

/-- One tick touches no track. -/
theorem tick {s : State} (h : s.tracksSound) : (tick s).tracksSound := by
  refine h.of_tracks fun k => ?_
  unfold Machine.tick
  dsimp only
  generalize dueEvents _ = due
  exact track_afterOrder { s with time := s.time + 1, sampler := Sampler.begin s.pins s.lines } k due

theorem step {s t : State} (h : s.tracksSound) (hx : step s = .next t) : t.tracksSound := by
  unfold Machine.step at hx
  split at hx
  · next c rest _ => exact exec (s := { s with pending := rest }) (h.of_tracks fun _ => rfl) hx
  · exact Host.Outcome.next.inj hx ▸ h.tick

end State.tracksSound

/-- Settles O56: the three invariants of the tracks together are kept by every command (`State.tracksSound.exec`) and by a tick. -/
theorem stepKeepsTracks : Obligations.StepKeepsTracks := by
  intro s t ht hl ho hx
  exact tracksSound_iff.mp ((tracksSound_iff.mpr ⟨ht, hl, ho⟩).step hx)

end Sys2Proof.Machine
end

section
/-!
CERTIFICATE. A step that retires, a MARK and an END that take effect (R30, R39, R40, R55 to R57).
-/

namespace Sys2Proof.Machine

/-! ## The reports of a retiring step -/

/-- The STEP-DONE of a retiring step carries the retire index as it now stands and the unreported count as it stood (R56). -/
theorem stepDoneReport_counted (t : TrackId) (step : CurrentStep) (o : StepOutcome) (s : State) :
    stepDoneReport t ((counted t step o s).track t) step o (counted t step o s).time =
      { source := BitVec.ofNat 8 t.val, tag := recTag step.record, time := s.time,
        body := .stepDone o (step.due.getD 0) step.pos step.pass ((s.track t).retiredTo step.pos) (s.track t).unreported } := by
  rw [track_counted, counted_time]
  rfl

theorem retired_silent {t : TrackId} {step : CurrentStep} (o : StepOutcome) (s : State) (h : recNotify step.record = false) :
    retired t step o s = counted t step o s := stepDone_silent h

theorem retired_notify {t : TrackId} {step : CurrentStep} (o : StepOutcome) (s : State) (h : recNotify step.record = true) :
    retired t step o s =
      (handReport (s.track t).rq
        { source := BitVec.ofNat 8 t.val, tag := recTag step.record, time := s.time,
          body := .stepDone o (step.due.getD 0) step.pos step.pass ((s.track t).retiredTo step.pos) (s.track t).unreported }
        (counted t step o s)).setTrack t { (counted t step o s).track t with
          unreported := if s.decision (s.track t).rq = .posted then 0
            else if (s.track t).unreported = 255 then 255 else (s.track t).unreported + 1 } := by
  rw [retired, stepDone_notify h, stepDoneReport_counted, counted_decision]
  have e := track_counted t step o s
  have hrq : ((counted t step o s).track t).rq = (s.track t).rq := by rw [e]
  have hun : ((counted t step o s).track t).unreported = (s.track t).unreported := by rw [e]
  rw [hrq, hun]

/-! ## In full for a track without a retire word and with nothing to wait for -/

/-- Without a retire word a moved retire index is the track's own matter (R23). -/
theorem setRetire_noWord {t : TrackId} {s : State} (r : Nat) (h : (s.track t).retireAddr = 0) :
    setRetire t r s = s.setTrack t { s.track t with retire := r } := by
  rw [setRetire_eq, if_neg (by simp [h])]

theorem counted_noWord {t : TrackId} {s : State} (step : CurrentStep) (o : StepOutcome) (h : (s.track t).retireAddr = 0) :
    counted t step o s = s.setTrack t { s.track t with
      retire := (s.track t).retiredTo step.pos
      applied := if o = .skipped then (s.track t).applied else (s.track t).applied + 1
      skipped := if o = .skipped then (s.track t).skipped + 1 else (s.track t).skipped } := by
  rw [counted, setRetire_noWord _ h, State.modTrack_eq, State.setTrack_setTrack, State.track_setTrack_self, Track.countOutcome_eq]

/-- The hold timer of an EMPTY track, in ticks of 10 ns (R48). -/
theorem ticksOf_eq (us : BitVec 16) : ticksOf us = us.setWidth 64 * 100 := rfl

/-- The due timer of a DUE track that has expired: the current step takes effect on the idle timers (R34). -/
theorem expireDue_eq {t : TrackId} {s : State} {step : CurrentStep} {moment : Time} (hs : (s.track t).state = .due)
    (hc : (s.track t).current = some step) (hd : (s.track t).dueTimer = some moment) (hm : moment ≤ s.time) :
    expireDue t s = carryOn t (takeEffect t step false (s.setTrack t (s.track t).idleTimers)) := by
  simp [expireDue, hs, hc, hd, reached, hm, dueExpired, State.modTrack_eq]

theorem takeEffect_mark {t : TrackId} {step : CurrentStep} {d : Time} (late : Bool) (s : State) (hd : step.due = some d)
    (hk : recKind step.record = some .mark) :
    takeEffect t step late s
      = retireStep t step (if late then .appliedLate else .applied) (s.setTrack t { s.track t with refTime := d }) := by
  simp [takeEffect, hk, hd, setRef, State.modTrack_eq]

theorem takeEffect_end {t : TrackId} {step : CurrentStep} (late : Bool) (s : State) (hk : recKind step.record = some .finish) :
    takeEffect t step late s = .rest (endEffect t step (if late then .appliedLate else .applied) s) := by
  simp [takeEffect, hk]

/-- How a step that takes effect retires is never SKIPPED (R30). -/
theorem effect_not_skipped (late : Bool) : (if late = true then StepOutcome.appliedLate else .applied) ≠ .skipped := by
  cases late <;> decide

/-- What an END changes before its STEP-DONE: the reference time, the loop, the retire index with its word, and its count (R40). -/
theorem track_counted_ending (t : TrackId) (step : CurrentStep) (o : StepOutcome) (s : State) (ho : o ≠ .skipped) :
    (counted t step o (ending t step s)).track t = { s.track t with
      refTime := step.due.getD 0, loop := none, retire := (s.track t).after step.pos, applied := (s.track t).applied + 1
      retireWrite :=
        if (s.track t).retire ≠ (s.track t).after step.pos ∧ (s.track t).retireAddr ≠ 0 ∧ (s.track t).retireWrite = none
        then some { value := (s.track t).after step.pos, earlier := false } else (s.track t).retireWrite } := by
  rw [track_counted, ending_retiredTo, track_ending, if_neg ho, if_neg ho]

theorem counted_ending_track_ne (t : TrackId) (step : CurrentStep) (o : StepOutcome) (s : State) {k : TrackId} (h : k ≠ t) :
    (counted t step o (ending t step s)).track k = s.track k := by
  rw [counted_track_ne _ _ _ _ h, ending, State.track_setTrack_ne _ _ h]

theorem counted_ending_sameBut (t : TrackId) (step : CurrentStep) (o : StepOutcome) (s : State) :
    SameButTracksAndWrites s (counted t step o (ending t step s)) := counted_sameBut t step o (ending t step s)

theorem counted_ending_writes (t : TrackId) (step : CurrentStep) (o : StepOutcome) (s : State) :
    (counted t step o (ending t step s)).link.writes = s.link.writes ++
      (if (s.track t).retire ≠ (s.track t).after step.pos ∧ (s.track t).retireAddr ≠ 0 ∧ (s.track t).retireWrite = none
        then [{ addr := (s.track t).retireAddr, data := leBytes 4 32 (BitVec.ofNat 32 ((s.track t).after step.pos))
                purpose := .retireWord t }] else []) := by
  rw [counted_writes, setRetire_writes, ending_retiredTo, track_ending]
  rfl

/-- ENDED is handed with the END's position and tag and the retire index past it (R40). -/
theorem ended_eq (t : TrackId) (step : CurrentStep) (o : StepOutcome) (s : State) :
    ended t step o s =
      handReport (s.track t).rq
        { source := BitVec.ofNat 8 t.val, tag := recTag step.record, time := s.time
          body := .trackEvent .ended none step.pos 0 ((s.track t).after step.pos) }
        ((retired t step o (ending t step s)).setTrack t { (retired t step o (ending t step s)).track t with
          state := .stopped, current := none, dueTimer := none, timeoutTimer := none, holdTimer := none }) := by
  obtain ⟨w, a, k, n, e⟩ := track_retired t step o (ending t step s)
  rw [ending_retiredTo, track_ending] at e
  have hrq : ((retired t step o (ending t step s)).track t).rq = (s.track t).rq := by rw [e]
  have hre : ((retired t step o (ending t step s)).track t).retire = (s.track t).after step.pos := by rw [e]
  have htime : (retired t step o (ending t step s)).time = s.time := by
    have h := (sameOutside_trackClosed (counted t step o (ending t step s)) t).stepDone step o (sameOutside_refl _)
    exact h.1.trans (counted_time t step o (ending t step s))
  unfold ended trackEvent
  simp only [State.modTrack_eq, State.track_setTrack_self, State.setTrack_time, Track.idleTimers, hrq, hre, htime]

/-- A retiring step with *notify*, on a track without a retire word: one report and one new context (R30, R56). -/
theorem retired_notify_noWord {t : TrackId} {s : State} {step : CurrentStep} (o : StepOutcome) (hn : recNotify step.record = true)
    (hw : (s.track t).retireAddr = 0) :
    retired t step o s =
      (handReport (s.track t).rq
        { source := BitVec.ofNat 8 t.val, tag := recTag step.record, time := s.time,
          body := .stepDone o (step.due.getD 0) step.pos step.pass ((s.track t).retiredTo step.pos) (s.track t).unreported }
        s).setTrack t { s.track t with
          retire := (s.track t).retiredTo step.pos
          applied := if o = .skipped then (s.track t).applied else (s.track t).applied + 1
          skipped := if o = .skipped then (s.track t).skipped + 1 else (s.track t).skipped
          unreported := if s.decision (s.track t).rq = .posted then 0
            else if (s.track t).unreported = 255 then 255 else (s.track t).unreported + 1 } := by
  rw [retired_notify o s hn, counted_noWord step o hw, handReport_setTrack, State.setTrack_setTrack, State.track_setTrack_self]

/-- A retiring step without *notify*, on a track without a retire word: one new context (R30). -/
theorem retired_silent_noWord {t : TrackId} {s : State} {step : CurrentStep} (o : StepOutcome) (hn : recNotify step.record = false)
    (hw : (s.track t).retireAddr = 0) :
    retired t step o s = s.setTrack t { s.track t with
      retire := (s.track t).retiredTo step.pos
      applied := if o = .skipped then (s.track t).applied else (s.track t).applied + 1
      skipped := if o = .skipped then (s.track t).skipped + 1 else (s.track t).skipped } := by
  rw [retired_silent o s hn, counted_noWord step o hw]

/-- Settles O47: each clause is the rule of `retireStep`, `takeEffect` or `ended`; the two that are in full run the due event. -/
theorem dueMarkAndEndTakeEffect : Obligations.DueMarkAndEndTakeEffect := by
  refine ⟨fun k step o s => ?retires, fun k step d late s hd hk => takeEffect_mark late s hd hk,
    fun k step d late s hd hk => ?endTakesEffect, fun k step d moment s hs hc hd ht hm hk hn hl hq hp hw => ?markInFull,
    fun k step d moment s hs hc hd ht hm hk hn hq hw => ?endInFull⟩
  case retires =>
    exact ⟨counted k step o s, retired k step o s, counted_sameBut k step o s, fun _ hj => counted_track_ne k step o s hj,
      track_counted k step o s, (counted_writes k step o s).trans (setRetire_writes k _ s), retired_silent o s, retired_notify o s,
      retireStep_goesOn step o, fun _ => retireStep_stops step o⟩
  case endTakesEffect =>
    let o : StepOutcome := if late = true then .appliedLate else .applied
    have ho : o ≠ .skipped := effect_not_skipped late
    have hreport := retired_notify (t := k) (step := step) o (ending k step s)
    rw [ending_retiredTo, track_ending, hd] at hreport
    have htrack := track_counted_ending k step o s ho
    rw [hd] at htrack
    refine ⟨counted k step o (ending k step s), retired k step o (ending k step s), ended k step o s,
      counted_ending_sameBut k step o s, fun _ hj => counted_ending_track_ne k step o s hj, htrack, counted_ending_writes k step o s,
      retired_silent o _, hreport, ended_eq k step o s, fun hq => ?_, fun lines hq => ?_⟩
    · rw [takeEffect_end late s hk, endEffect_eq, hq]
    · rw [takeEffect_end late s hk, endEffect_eq, hq]
  case markInFull =>
    refine congrArg Host.Outcome.next ?_
    rw [expireDue_eq hs hc ht hm, takeEffect_mark false _ hd hk, retireStep_goesOn _ _ (by simpa [Track.idleTimers] using hq),
      retired_notify_noWord _ hn (by simpa [Track.idleTimers] using hw), carryOn, takeNext_empty (by simpa [Track.idleTimers] using hp)]
    simp [enterEmpty, State.modTrack_eq, handReport_setTrack, Track.toEmpty, Track.idleTimers, Track.retiredTo, Track.after, hl, hd,
      decision_setTrack, ticksOf_eq]
  case endInFull =>
    refine congrArg Host.Outcome.next ?_
    rw [expireDue_eq hs hc ht hm, takeEffect_end false _ hk, endEffect_eq]
    simp [carryOn, ended_eq, retired_silent_noWord _ hn, hq, hw, handReport_setTrack, ending, hd, Track.idleTimers, Track.retiredTo,
      Track.after]

end Sys2Proof.Machine
end

section
/-!
CERTIFICATE. The judgment of a step, the chain of records, and LOOP and NEXT (R28, R29, R31, R33, R35, R36, R45 to R48).
-/

namespace Sys2Proof.Machine

/-! ## The judgment (R33, R35, R36) -/

section Judge

variable {t : TrackId} {step : CurrentStep} {d : Time} {s : State}

theorem judge_early (hd : step.due = some d) (h : s.time.toNat < d.toNat) :
    judge t step s = .rest (s.setTrack t { s.track t with
      state := .due, dueTimer := some d, timeoutTimer := none, holdTimer := none }) := by
  unfold judge
  rw [hd]
  exact if_pos (BitVec.lt_def.mpr h)

theorem judge_onTime (hd : step.due = some d) (h : d.toNat ≤ s.time.toNat)
    (hl : ¬d.toNat + (s.track t).tolerance.toNat < s.time.toNat) : judge t step s = takeEffect t step false s := by
  unfold judge
  rw [hd]
  exact (if_neg (by simpa [BitVec.lt_def] using h)).trans (if_pos (Nat.not_lt.mp hl))

theorem judge_late (hd : step.due = some d) (hl : d.toNat + (s.track t).tolerance.toNat < s.time.toNat) :
    judge t step s = lateStep t step (s.setTrack t { s.track t with late := (s.track t).late + 1 }) := by
  have he : ¬s.time.toNat < d.toNat := by omega
  unfold judge
  rw [hd]
  exact (if_neg (by simpa [BitVec.lt_def] using he)).trans (if_neg (Nat.not_le.mpr hl))

theorem lateStep_fault (h : (s.track t).latePolicy = .fault) : lateStep t step s = .rest (enterSafe t .late .started s) := by
  simp [lateStep, h]

theorem lateStep_apply (h : (s.track t).latePolicy = .apply) : lateStep t step s = takeEffect t step true s := by
  simp [lateStep, h]

theorem lateStep_skip_end (h : (s.track t).latePolicy = .skip) (hk : recKind step.record = some .finish) :
    lateStep t step s = takeEffect t step true s := by
  simp [lateStep, h, hk]

theorem lateStep_skip (h : (s.track t).latePolicy = .skip) (hk : recKind step.record ≠ some .finish) :
    lateStep t step s = retireStep t step .skipped (s.setTrack t { s.track t with refTime := step.due.getD 0 }) := by
  simp [lateStep, h, hk, skipStep, setRef, State.modTrack_eq]

end Judge

/-- The due time of a record in each of its modes (R31). -/
theorem dueTime_eq {r : StepRecord} {ref now d : Time}
    (h : (recDueMode r = some .abs ∧ d = recDue r) ∨ (recDueMode r = some .rel ∧ d = ref + recDue r)
      ∨ (recDueMode r = some .now ∧ d = now)) : dueTime r ref now = d := by
  rcases h with ⟨hm, rfl⟩ | ⟨hm, rfl⟩ | ⟨hm, rfl⟩ <;> simp [dueTime, hm]

theorem enterEmpty_eq (t : TrackId) (s : State) :
    enterEmpty t s = s.setTrack t { s.track t with
      state := .empty, current := none, dueTimer := none, timeoutTimer := none
      holdTimer := if (s.track t).holdLimit = 0 then none else some (s.time + (s.track t).holdLimit.setWidth 64 * 100) } := rfl

/-- A closed loop at the head of the list: the context that the retire index then leaves (R47, R23). -/
theorem closeLoop_head (t : TrackId) (e : Fetched) (rest : List Fetched) (s : State) :
    closeLoop t e (s.setTrack t ((s.track t).takeHead e rest)) =
      setRetire t ((e.pos + 1) % (s.track t).sqSize)
        (s.setTrack t { s.track t with prefetch := rest, current := none, loop := none }) := by
  simp [closeLoop, State.modTrack_eq, Track.takeHead, Track.after]

/-- Settles O49: the cases of `judge`, and `takeNext` by the kind of the head. -/
theorem judgmentAndLoops : Obligations.JudgmentAndLoops := by
  refine ⟨fun k step d s hd => ⟨judge_early hd, judge_onTime hd, ?fault, ?apply, ?skipEnd, ?skip⟩,
    fun k s => ⟨rfl, rfl, fun hp => ?empty, fun e rest d hp hc ht hdue => ?timed⟩,
    fun k e rest s hp hc => ⟨fun hk => ?loop, fun l hl hk => ⟨fun hr => ?jump, fun hr => ?close⟩⟩⟩
  case fault =>
    intro hl hp
    rw [judge_late hd hl, lateStep_fault (by simpa using hp)]
  case apply =>
    intro hl hp
    rw [judge_late hd hl, lateStep_apply (by simpa using hp)]
  case skipEnd =>
    intro hl hp hk
    rw [judge_late hd hl, lateStep_skip_end (by simpa using hp) hk]
  case skip =>
    intro hl hp hk
    rw [judge_late hd hl, lateStep_skip (by simpa using hp) hk, hd]
    simp
  case empty => rw [takeNext_empty hp, enterEmpty_eq]
  case timed =>
    rw [takeNext_timed hp hc ht, dueTime_eq hdue, fixAndJudge, State.modTrack_eq]
    cases hl : (s.track k).loop <;> simp [Track.takeHead, Track.headStep, hl]
  case loop =>
    rw [takeNext_loop hp hc hk]
    rfl
  case jump =>
    rw [takeNext_jump hp hc hk hl (BitVec.lt_def.mpr hr), enterEmpty_eq]
    simp [Track.jump, Track.takeHead, Track.nextEpoch]
  case close =>
    have he := takeNext_close hp hc hk hl (by simpa [BitVec.lt_def] using hr)
    rw [closeLoop_head] at he
    let closed := s.setTrack k { s.track k with prefetch := rest, current := none, loop := none }
    have hc : closed.track k = { s.track k with prefetch := rest, current := none, loop := none } := State.track_setTrack_self _ _ _
    have ht := track_setRetire k ((e.pos + 1) % (s.track k).sqSize) closed
    have hw := setRetire_writes k ((e.pos + 1) % (s.track k).sqSize) closed
    rw [hc] at ht hw
    exact ⟨_, he, setRetire_sameBut k _ closed, fun j hj =>
      (setRetire_track_ne k _ closed hj).trans (State.track_setTrack_ne s _ hj), ht, hw⟩

end Sys2Proof.Machine
end

section
/-!
CERTIFICATE. The check of a record in the order of R21's table, read from the bytes of R192, and a head that fails it (R22).
-/

namespace Sys2Proof.Machine

/-! ## The codes a record may hold (R191) -/

theorem stepKind_none {b : Byte} (h : b.toNat = 0 ∨ 6 < b.toNat) : stepKind? b = none := by
  unfold stepKind?
  generalize b.toNat = n at h
  rcases n with _ | _ | _ | _ | _ | _ | _ | n <;> simp_all

theorem dueMode_none {b : Byte} : dueMode? b = none ↔ b.toNat = 0 ∨ 3 < b.toNat := by
  unfold dueMode?
  generalize b.toNat = n
  rcases n with _ | _ | _ | _ | n <;> simp

theorem waitCond_none {b : Byte} : waitCond? b = none ↔ b.toNat = 0 ∨ 5 < b.toNat := by
  unfold waitCond?
  generalize b.toNat = n
  rcases n with _ | _ | _ | _ | _ | _ | n <;> simp

theorem onTimeout_none {b : Byte} : onTimeout? b = none ↔ b.toNat = 0 ∨ 2 < b.toNat := by
  unfold onTimeout?
  generalize b.toNat = n
  rcases n with _ | _ | _ | n <;> simp

/-- A mask names a lane that the track does not have (R21). -/
theorem mask_outside {n : Nat} {m : BitVec 16} : 2 ^ n ≤ m.toNat ↔ ∃ i, n ≤ i ∧ m.getLsbD i = true := by
  constructor
  · intro h
    obtain ⟨i, hi, hb⟩ := Nat.exists_ge_and_testBit_of_ge_two_pow h
    exact ⟨i, hi, hb⟩
  · rintro ⟨i, hi, hb⟩
    exact (Nat.pow_le_pow_right (by decide) hi).trans (Nat.ge_two_pow_of_testBit hb)

/-! ## The check, kind by kind (R21) -/

section Check

variable {n : Nat} {active : Bool} {r : StepRecord}

theorem checkRecord_unknown (h : recKind r = none) : checkRecord n active r = some .unknownKind := by
  simp [checkRecord, h]

theorem checkRecord_level (h : recKind r = some .level) :
    checkRecord n active r =
      if recDueMode r = none then some .badDue else if 2 ^ n ≤ (recMask r).toNat then some .maskRange else none := by
  simp [checkRecord, h]

theorem checkRecord_plain (h : recKind r = some .mark ∨ recKind r = some .finish) :
    checkRecord n active r = if recDueMode r = none then some .badDue else none := by
  rcases h with h | h <;> simp [checkRecord, h]

theorem checkRecord_wait (h : recKind r = some .wait) :
    checkRecord n active r =
      if recDueMode r = none then some .badDue else if recLine r = none then some .badLine
      else if recCond r = none ∨ recOnTimeout r = none then some .badCondition else none := by
  simp [checkRecord, h]

theorem checkRecord_loop (h : recKind r = some .loop) :
    checkRecord n active r = if recCount r = 0 then some .loopCount else if active then some .nestedLoop else none := by
  simp [checkRecord, h]

theorem checkRecord_next (h : recKind r = some .next) :
    checkRecord n active r = if active then none else some .nextWithoutLoop := by
  simp [checkRecord, h]

/-- A timed record of whatever kind with an unknown due mode (R21). -/
theorem checkRecord_badDue (h : Timed r) (hd : recDueMode r = none) : checkRecord n active r = some .badDue := by
  rcases h with h | h | h | h
  · rw [checkRecord_level h, if_pos hd]
  · rw [checkRecord_plain (.inl h), if_pos hd]
  · rw [checkRecord_wait h, if_pos hd]
  · rw [checkRecord_plain (.inr h), if_pos hd]

end Check

/-- The kind of a record whose first byte is this code. -/
theorem recKind_of_code (b : Byte) {r : StepRecord} (h : r[0].toNat = b.toNat) : recKind r = stepKind? b := by
  rw [recKind, BitVec.eq_of_toNat_eq h]

/-- Settles O44: the check by the kind of the record, and `takeNext_bad`. -/
theorem recordChecks : Obligations.RecordChecks := by
  constructor
  · intro n active r
    have hdue : recDueMode r = none ↔ r[2].toNat = 0 ∨ 3 < r[2].toNat := dueMode_none
    have hline : recLine r = none ↔ 48 ≤ r[16].toNat := numberBelow_eq_none
    have hmask : 2 ^ n ≤ (recMask r).toNat ↔ ∃ i, n ≤ i ∧ (le16 r[16] r[17]).getLsbD i = true := mask_outside
    have hcond : (recCond r = none ∨ recOnTimeout r = none)
        ↔ r[17].toNat = 0 ∨ 5 < r[17].toNat ∨ r[18].toNat = 0 ∨ 2 < r[18].toNat :=
      (or_congr waitCond_none onTimeout_none).trans or_assoc
    intro sub kind badDue outside badCond
    refine ⟨fun h => checkRecord_unknown (stepKind_none h), fun h hb => checkRecord_badDue ?_ (hdue.mpr hb), fun h hb ho => ?_,
      fun h hb ho => ?_, fun h hb => ?_, fun h hb hl => ?_, fun h hb hl => ?_, fun h hc => ?_, fun h hc => ?_, fun h => ?_⟩
    · rcases h with h | h | h | h
      · exact .inl (recKind_of_code 1 h)
      · exact .inr (.inl (recKind_of_code 2 h))
      · exact .inr (.inr (.inl (recKind_of_code 3 h)))
      · exact .inr (.inr (.inr (recKind_of_code 6 h)))
    · exact (checkRecord_level (recKind_of_code 1 h)).trans (by rw [if_neg (mt hdue.mp hb), if_pos (hmask.mpr ho)])
    · exact (checkRecord_level (recKind_of_code 1 h)).trans (by rw [if_neg (mt hdue.mp hb), if_neg (mt hmask.mp ho)])
    · exact (checkRecord_plain (h.imp (recKind_of_code 2) (recKind_of_code 6))).trans (if_neg (mt hdue.mp hb))
    · exact (checkRecord_wait (recKind_of_code 3 h)).trans (by rw [if_neg (mt hdue.mp hb), if_pos (hline.mpr hl)])
    · have hl : ¬recLine r = none := mt hline.mp (Nat.not_le.mpr hl)
      refine (checkRecord_wait (recKind_of_code 3 h)).trans ?_
      rw [if_neg (mt hdue.mp hb), if_neg hl]
      exact if_congr hcond rfl rfl
    · exact (checkRecord_loop (recKind_of_code 4 h)).trans (if_pos hc)
    · exact (checkRecord_loop (recKind_of_code 4 h)).trans (if_neg hc)
    · exact checkRecord_next (recKind_of_code 5 h)
  · intro k e rest sub s hp hc
    have hbad : takeNext k s = enterSafe k (.badStep sub) .started (s.setTrack k { s.track k with
        prefetch := rest
        current := some { record := e.record, pos := e.pos, due := none, waitStart := none
                          pass := match (s.track k).loop with | some l => l.pass | none => 0 } }) := by
      have hpass : ((s.track k).loop.map (·.pass)).getD 0 = match (s.track k).loop with | some l => l.pass | none => 0 := by
        cases (s.track k).loop <;> rfl
      rw [takeNext_bad hp hc, Track.takeHead, hpass]
    have htrack := congrArg (State.track · k) hbad
    dsimp only at htrack
    rw [track_enterSafe, State.track_setTrack_self] at htrack
    refine ⟨hbad, ?_⟩
    rw [htrack]
    exact ⟨rfl, rfl, rfl, rfl, rfl, rfl, rfl⟩

end Sys2Proof.Machine
end

section
/-!
CERTIFICATE. What a port reset and a soft reset leave, and when RESETTING ends (R189, R190).
-/

namespace Sys2Proof.Machine

/-! ## The state of a reset -/

/-- The blocks as the start of RESETTING leaves them, with these reads and writes still in flight (R189, R190). -/
def resetWith (s : State) (reads : List PendingRead) (writes : List PendingWrite) (n : Nat) : State :=
  { resetBlocks s with
    link := { s.link with reads := reads, writes := writes, marks := Vector.replicate 8 false }, freeIndex := n }

/-- A port reset abandons everything in flight (R190). -/
theorem hardReset_eq {s : State} (h : s.port.dev ≠ .resetting) :
    hardReset s = (resetWith s [] [] s.freeIndex).endIfDrained := by
  have hl : (resetBlocks s).link = { s.link with marks := Vector.replicate 8 false } := by rw [resetBlocks_eq]
  have hf : (resetBlocks s).freeIndex = s.freeIndex := by rw [resetBlocks_eq]
  rw [hardReset, if_neg h, abandonAll, hl, resetWith, ← hf]

/-- A soft reset keeps the writes in flight, and of the reads those already carried (R190). -/
theorem softReset_keeps {s : State} (h : s.port.dev ≠ .resetting) :
    ∃ reads n, reads.Sublist s.link.reads ∧ softReset s = (resetWith s reads s.link.writes n).endIfDrained := softReset_eq h

/-- Either reset, as the command that makes it. -/
theorem reset_completes {c : Instr} {s : State} (hc : c = .portReset ∨ ∃ run, c = .ctrlReset run) (h : s.port.dev ≠ .resetting) :
    ∃ reads writes n, Completes c s (resetWith s reads writes n).endIfDrained := by
  rcases hc with rfl | ⟨run, rfl⟩
  · exact ⟨[], [], s.freeIndex, congrArg Host.Outcome.next (hardReset_eq h)⟩
  · obtain ⟨reads, n, -, e⟩ := softReset_keeps h
    exact ⟨reads, s.link.writes, n, congrArg Host.Outcome.next e⟩

section Fields

variable (s : State) (reads : List PendingRead) (writes : List PendingWrite) (n : Nat)

theorem resetWith_eq : resetWith s reads writes n =
    { s with
      port := s.port.afterReset, admin := Admin.afterReset, lastGranted := 7, tracks := (resetBlocks s).tracks
      lines := (resetBlocks s).lines, trips := Vector.replicate 2 Trip.afterReset, rqs := Vector.replicate 8 ReportQueue.absent
      waiting := none, link := { s.link with reads := reads, writes := writes, marks := Vector.replicate 8 false }
      freeIndex := n } := by
  rw [resetWith, resetBlocks_eq]

theorem track_resetWith (k : TrackId) : (resetWith s reads writes n).track k = (s.track k).afterReset := by
  have h := track_resetBlocks s k
  unfold resetWith
  generalize resetBlocks s = b at h
  exact h

/-- RESETTING is over at once exactly with nothing in flight (R190). -/
theorem resetWith_drained : (resetWith s reads writes n).endIfDrained =
    { resetWith s reads writes n with port := { s.port.afterReset with
      dev := if reads = [] ∧ writes = [] then .idle else .resetting } } := by
  rw [endIfDrained_eq, resetWith_eq]
  simp [Port.afterReset]

end Fields

/-- Settles O5: both resets leave the state of `resetWith`, whose parts `resetBlocks_eq` names. -/
theorem resetBlocksAndDrain : Obligations.ResetBlocksAndDrain := by
  refine ⟨fun c s hc hd => ?blocks, fun c s hd => ⟨?port, ?soft⟩⟩
  case blocks =>
    obtain ⟨reads, writes, n, hx⟩ := reset_completes hc hd
    refine ⟨_, hx, ?_⟩
    have ht : ∀ k, (resetWith s reads writes n).endIfDrained.track k = (s.track k).afterReset := fun k => by
      rw [track_endIfDrained, track_resetWith]
    generalize hx' : (resetWith s reads writes n).endIfDrained = t at ht
    rw [resetWith_drained, resetWith_eq] at hx'
    generalize (resetBlocks s).tracks = tracks at hx'
    subst hx'
    exact ⟨rfl, rfl, rfl, rfl, ht, fun u => by simp [State.trip], fun q => by simp [State.rq], rfl, rfl, rfl, fun v => by simp, rfl⟩
  case port =>
    rintro rfl
    refine ⟨_, congrArg Host.Outcome.next (hardReset_eq hd), ?_⟩
    rw [resetWith_drained]
    exact ⟨rfl, rfl, rfl⟩
  case soft =>
    rintro run rfl
    obtain ⟨reads, n, hsub, e⟩ := softReset_keeps hd
    refine ⟨_, congrArg Host.Outcome.next e, ?_⟩
    rw [resetWith_drained]
    exact ⟨rfl, hsub, rfl⟩

end Sys2Proof.Machine
end

section
/-!
CERTIFICATE. A post is checked against its ring (R2, R165, R185).
-/

namespace Sys2Proof.Machine

theorem taking_iff {s : State} : s.taking = true ↔ s.live := by simp [State.taking, State.live]

/-- The ring distance is subtraction modulo the ring size (00_scope.md, Rings). -/
theorem ringDist_int {size a b : Nat} (h : 0 < size) : ((ringDist size a b : Nat) : Int) = ((a : Int) - (b : Int)) % (size : Int) := by
  have hb : b % size ≤ size := (Nat.mod_lt b h).le
  have hdiv : (b : Int) = size * (b / size : Int) + (b % size : Int) := (Int.mul_ediv_add_emod b size).symm
  have e : (a : Int) + (size - b % size) = (a - b) + size * (1 + b / size) := by
    rw [mul_add, mul_one]
    linarith
  rw [ringDist, Int.natCast_emod, Nat.cast_add, Nat.cast_sub hb, Int.natCast_emod, e, Int.add_mul_emod_self_left]

/-- The check of a post, spelled out (R2, R165). -/
theorem postOk_iff {size post first index : Nat} : postOk size post first index = true ↔
    index < size ∧ ringDist size post first + ringDist size index post ≤ size - 1 := by simp [postOk]

section Posts

variable {s : State} (index : BitVec 16)

theorem writePost_ignored {selector : BitVec 4} (h : ¬s.live) : writePost selector index s = s := by
  simp [writePost, mt taking_iff.mp h]

/-- A post to the admin queue (R165). -/
theorem writePost_admin (h : s.live) : writePost 0 index s =
    if index.toNat < s.admin.size
      ∧ ringDist s.admin.size s.admin.post s.admin.taken + ringDist s.admin.size index.toNat s.admin.post ≤ s.admin.size - 1
    then { s with admin := { s.admin with post := index.toNat } }
    else handReport 0 { source := 0, tag := 0, time := s.time, body := .postRefused index } s := by
  have ht := taking_iff.mpr h
  unfold writePost queueEvent
  dsimp only
  rw [if_neg (by simp [ht]), if_pos rfl]
  exact if_congr postOk_iff rfl rfl

/-- A post to a sequence queue, by the selector of its track (R2, R185). -/
theorem writePost_track (k : TrackId) (h : s.live) : writePost (BitVec.ofNat 4 (k.val + 1)) index s =
    if (s.track k).state ≠ .unbound ∧ index.toNat < (s.track k).sqSize
      ∧ ringDist (s.track k).sqSize (s.track k).post (s.track k).retire
          + ringDist (s.track k).sqSize index.toNat (s.track k).post ≤ (s.track k).sqSize - 1
    then s.setTrack k { s.track k with post := index.toNat }
    else handReport 0 { source := BitVec.ofNat 8 (k.val + 1), tag := 0, time := s.time, body := .postRefused index } s := by
  have ht := taking_iff.mpr h
  have hsel : (BitVec.ofNat 4 (k.val + 1)).toNat = k.val + 1 := by
    rw [BitVec.toNat_ofNat]
    exact Nat.mod_eq_of_lt (by omega)
  have hne : BitVec.ofNat 4 (k.val + 1) ≠ 0 := fun e => by
    have := congrArg BitVec.toNat e
    rw [hsel] at this
    simp at this
  have hlt : (BitVec.ofNat 4 (k.val + 1)).toNat - 1 < 8 := by rw [hsel]; omega
  have hk : (⟨(BitVec.ofNat 4 (k.val + 1)).toNat - 1, hlt⟩ : TrackId) = k := Fin.ext (show (BitVec.ofNat 4 (k.val + 1)).toNat - 1 = k.val by omega)
  have hsrc : (BitVec.ofNat 4 (k.val + 1)).setWidth 8 = BitVec.ofNat 8 (k.val + 1) := by
    apply BitVec.eq_of_toNat_eq
    rw [BitVec.toNat_setWidth, hsel, BitVec.toNat_ofNat]
  unfold writePost queueEvent
  dsimp only
  rw [if_neg (by simp [ht]), if_neg hne, dif_pos hlt, hk, hsrc]
  exact if_congr (and_congr Track.bound_iff postOk_iff) rfl rfl

/-- A selector that names no queue (R185). -/
theorem writePost_above {selector : BitVec 4} (h : s.live) (hs : 8 < selector.toNat) : writePost selector index s =
    handReport 0 { source := selector.setWidth 8, tag := 0, time := s.time, body := .postRefused index } s := by
  have ht := taking_iff.mpr h
  have hne : selector ≠ 0 := fun e => by rw [e] at hs; simp at hs
  unfold writePost queueEvent
  dsimp only
  rw [if_neg (by simp [ht]), if_neg hne, dif_neg (by omega)]

end Posts

/-- Settles O11: `writePost` by the queue that the selector names, and the ring distance as a remainder. -/
theorem postChecked : Obligations.PostChecked := by
  refine ⟨fun index s => ?admin, fun k index s hl => ?track, fun size a b => ringDist_int⟩
  case admin =>
    intro fits
    refine ⟨fun hl hf => congrArg Host.Outcome.next ?_, fun hl hf => congrArg Host.Outcome.next ?_,
      fun hl => congrArg Host.Outcome.next (writePost_ignored index hl)⟩
    · exact (writePost_admin index hl).trans (if_pos hf)
    · exact (writePost_admin index hl).trans (if_neg hf)
  case track =>
    intro c fits
    refine ⟨fun hf => congrArg Host.Outcome.next ?_, fun hf => congrArg Host.Outcome.next ?_,
      fun selector hs => congrArg Host.Outcome.next (writePost_above index hl hs)⟩
    · exact (writePost_track index k hl).trans (if_pos hf)
    · exact (writePost_track index k hl).trans (if_neg hf)

end Sys2Proof.Machine
end

section
/-!
CERTIFICATE. The arbiter and the reads that the fetch unit issues (R13, R19, R20, R168).
-/

namespace Sys2Proof.Machine

/-- The first number that a predicate names is the one that a search finds. -/
theorem find_first {n : Nat} {p : Fin n → Bool} {k : Fin n} (hk : p k = true) (hlt : ∀ j, j < k → p j = false) :
    (List.finRange n).find? p = some k := by
  refine List.find?_eq_some_iff_getElem.mpr ⟨hk, k.val, by simp, by simp, fun j hj => ?_⟩
  rw [List.getElem_finRange, Bool.not_eq_true']
  exact hlt _ hj

/-! ## Who requests (R13, R19, R167) -/

theorem requester_iff {c : Track} : c.requester = true ↔
    c.state ≠ .unbound ∧ c.state ≠ .safe ∧ c.prefetch.length < 8 ∧ c.fetch ≠ c.post ∧ c.read = none := by
  simp only [Track.requester, Track.canEnterSafe, Bool.and_eq_true, decide_eq_true_eq, and_assoc]
  exact Iff.rfl

theorem urgent_iff {c : Track} : c.urgent = true ↔ c.state = .empty ∨ (c.state = .due ∧ c.prefetch = []) := by
  simp [Track.urgent]

theorem waitingForCommand_iff {s : State} : waitingForCommand s = true ↔
    s.admin.engine = .idleWait ∧ s.port.dev = .ready ∧ s.port.run = true ∧ s.admin.post ≠ s.admin.taken := by
  simp [waitingForCommand, permitted, and_assoc]

/-! ## Whom the arbiter grants (R19) -/

section Grant

variable {s : State}

theorem grant_urgent {k : TrackId} (h : (s.track k).requester = true ∧ (s.track k).urgent = true)
    (hlt : ∀ j, j < k → ¬((s.track j).requester = true ∧ (s.track j).urgent = true)) : grant s = some (.track k) := by
  have hf := find_first (p := fun t => (s.track t).requester && (s.track t).urgent) (k := k) (by simpa using h)
    (fun j hj => by simpa using hlt j hj)
  rw [grant, hf]

/-- With no urgent requester the admin engine comes first, and then the tracks in turn (R19 steps 2 and 3). -/
theorem grant_notUrgent (h : ∀ k, ¬((s.track k).requester = true ∧ (s.track k).urgent = true)) :
    grant s = if waitingForCommand s then some .admin
      else ((roundRobin s.lastGranted).find? fun t => (s.track t).requester).map .track := by
  have hf : (List.finRange 8).find? (fun t => (s.track t).requester && (s.track t).urgent) = none :=
    List.find?_eq_none.mpr fun t _ => by simpa using h t
  rw [grant, hf]

/-- Round robin finds the first requester after the last granted track (R19 step 3). -/
theorem roundRobin_first {last i : TrackId} (h : (s.track (last + 1 + i)).requester = true)
    (hlt : ∀ j, j < i → ¬(s.track (last + 1 + j)).requester = true) :
    (roundRobin last).find? (fun t => (s.track t).requester) = some (last + 1 + i) := by
  rw [roundRobin, List.find?_map, find_first h fun j hj => by simpa using hlt j hj]
  rfl

theorem roundRobin_none {last : TrackId} (h : ∀ k, ¬(s.track k).requester = true) :
    (roundRobin last).find? (fun t => (s.track t).requester) = none :=
  List.find?_eq_none.mpr fun t _ => h t

end Grant

/-- Settles O19: the three steps of `grant`, with its tests spelled out. -/
theorem arbiterGrants : Obligations.ArbiterGrants := by
  intro s requests urgent waits
  have hu : ∀ k, urgent k ↔ (s.track k).requester = true ∧ (s.track k).urgent = true := fun k =>
    (and_congr requester_iff urgent_iff).symm
  have hr : ∀ k, requests k ↔ (s.track k).requester = true := fun k => requester_iff.symm
  have hw : waits ↔ waitingForCommand s = true := waitingForCommand_iff.symm
  simp only [hu, hr, hw]
  refine ⟨fun k => grant_urgent, fun hn hc => ?_, fun hn hc i hi hlt => ?_, fun hn hc => ?_⟩
  · rw [grant_notUrgent hn, if_pos hc]
  · rw [grant_notUrgent hn, if_neg hc, roundRobin_first hi hlt]
    rfl
  · rw [grant_notUrgent fun k h => hn k h.1, if_neg hc, roundRobin_none hn]
    rfl

/-! ## The read that is issued (R13, R20, R168) -/

section Issue

variable {s : State} (hd : s.port.dev ≠ .resetting)

include hd

theorem issueGrant_track {t : TrackId} (hg : grant s = some (.track t)) : issueGrant s = issueStepRead t s := by
  rw [issueGrant, if_neg hd, hg]

theorem issueGrant_admin (hg : grant s = some .admin) : issueGrant s = issueCommandRead s := by
  rw [issueGrant, if_neg hd, hg]

theorem issueGrant_none (hg : grant s = none) : issueGrant s = s := by
  rw [issueGrant, if_neg hd, hg]

end Issue

@[simp] theorem track_issueStepRead (t : TrackId) (s : State) :
    (issueStepRead t s).track t =
      { s.track t with read := some { start := (s.track t).fetch, count := (s.track t).readLength, stale := false } } :=
  State.track_setTrack_self s t _

theorem track_issueStepRead_ne {t k : TrackId} (s : State) (h : k ≠ t) : (issueStepRead t s).track k = s.track k :=
  State.track_setTrack_ne s _ h

/-- Settles O20: `issueGrant` by what `grant` answers. -/
theorem readIssued : Obligations.ReadIssued := by
  refine ⟨fun k s hd hg => ?_, fun s hd => ⟨fun hg => congrArg Host.Outcome.next (issueGrant_admin hd hg),
    fun hg => congrArg Host.Outcome.next (issueGrant_none hd hg)⟩⟩
  exact ⟨issueStepRead k s, congrArg Host.Outcome.next (issueGrant_track hd hg), rfl, track_issueStepRead k s,
    fun j hj => track_issueStepRead_ne s hj⟩

end Sys2Proof.Machine
end

section
/-!
CERTIFICATE. How step reads and retire-word writes complete (R14 to R17, R24, R25).
-/

namespace Sys2Proof.Machine

/-! ## Entry into SAFE where the state allows it (R16, R24) -/

section Force

variable {t : TrackId} {s : State} (cause : SafeCause)

theorem forceSafe_kept (h : (s.track t).state = .safe ∨ (s.track t).state = .unbound) : forceSafe t cause s = s := by
  rcases h with h | h <;> simp [forceSafe, Track.canEnterSafe, h]

theorem forceSafe_notStarted (h : (s.track t).state = .stopped ∨ (s.track t).state = .armed) :
    forceSafe t cause s = enterSafe t cause .notStarted s := by
  rcases h with h | h <;> simp [forceSafe, Track.canEnterSafe, Track.safeOrigin, h]

theorem forceSafe_started (h : (s.track t).state = .due ∨ (s.track t).state = .inputWait ∨ (s.track t).state = .empty
    ∨ (s.track t).state = .paused) : forceSafe t cause s = enterSafe t cause .started s := by
  rcases h with h | h | h | h <;> simp [forceSafe, Track.canEnterSafe, Track.safeOrigin, h]

end Force

/-! ## Step reads -/

/-- The records of a read, by their number (R14). -/
theorem fetched_getElem (r : ReadInFlight) (data : Vector StepRecord 8) {i : Fin 8} (h : i.val < r.count) :
    (fetched r data)[i.val]? = some { record := data[i], pos := r.start + i.val } := by
  simp [fetched, h]

section StepRead

variable {t : TrackId} {s : State} {r : ReadInFlight}
variable (hd : s.port.dev ≠ .resetting) (hf : (s.readOf (.track t)).isSome = true) (hr : (s.track t).read = some r)

include hd hf hr

theorem completeStepRead_joins (data : Vector StepRecord 8) (hs : r.stale = false) (he : (s.track t).state ≠ .empty) :
    completeStepRead t data s = (s.dropRead (.track t)).setTrack t ((s.track t).join r data) := by
  obtain ⟨x, hx⟩ := Option.isSome_iff_exists.mp hf
  have he' : ((s.track t).join r data).state ≠ .empty := he
  simp [completeStepRead, hx, hd, hr, hs, he', State.modTrack_eq]

theorem completeStepRead_stale (data : Vector StepRecord 8) (hs : r.stale = true) :
    completeStepRead t data s = (s.dropRead (.track t)).setTrack t { s.track t with read := none } := by
  obtain ⟨x, hx⟩ := Option.isSome_iff_exists.mp hf
  simp [completeStepRead, hx, hd, hr, hs, State.modTrack_eq]

theorem failStepRead_stale (hs : r.stale = true) :
    failStepRead t s = (s.dropRead (.track t)).setTrack t { s.track t with read := none } := by
  obtain ⟨x, hx⟩ := Option.isSome_iff_exists.mp hf
  simp [failStepRead, hx, hd, hr, hs, State.modTrack_eq]

theorem failStepRead_current (hs : r.stale = false) :
    failStepRead t s = forceSafe t .hostMemory ((s.dropRead (.track t)).setTrack t { s.track t with read := none }) := by
  obtain ⟨x, hx⟩ := Option.isSome_iff_exists.mp hf
  simp [failStepRead, hx, hd, hr, hs, State.modTrack_eq]

end StepRead

/-- Settles O21: a current read joins the list, a stale one leaves only its record cleared. -/
theorem stepReadJoinsList : Obligations.StepReadJoinsList := by
  refine ⟨fun k data r s hd hf hr hs he hn => ?joins, fun c k r s hc hd hf hr hs => ?stale⟩
  case joins =>
    have hlen := fetched_length r data hn
    refine ⟨_, congrArg Host.Outcome.next (completeStepRead_joins hd hf hr data hs he), rfl, rfl,
      fun j hj => State.track_setTrack_ne _ _ hj, ?_⟩
    rw [State.track_setTrack_self]
    refine ⟨rfl, ?_, fun i hi => ?_, fun i hi => ?_⟩
    · simp [Track.join, hlen]
    · exact List.getElem?_append_left hi
    · refine (List.getElem?_append_right (Nat.le_add_right _ _)).trans ?_
      rw [Nat.add_sub_cancel_left]
      exact fetched_getElem r data hi
  case stale =>
    rcases hc with ⟨data, rfl⟩ | rfl
    · exact congrArg Host.Outcome.next (completeStepRead_stale hd hf hr data hs)
    · exact congrArg Host.Outcome.next (failStepRead_stale hd hf hr hs)

/-! ## The limit of a read (R17) -/

section Timeout

variable {who : Requester} {s : State}

theorem timeoutRead_early {r : PendingRead} (hr : s.readOf who = some r) (h : s.time < r.issued + 1000000) :
    timeoutRead who s = s := by
  have hn : ¬r.issued + Config.readLimit ≤ s.time := BitVec.not_le.mpr h
  simp [timeoutRead, hr, reached, hn]

theorem timeoutRead_none (hr : s.readOf who = none) : timeoutRead who s = s := by simp [timeoutRead, hr]

theorem timeoutRead_track {t : TrackId} {r : PendingRead} (hr : s.readOf (.track t) = some r) (h : r.issued + 1000000 ≤ s.time) :
    timeoutRead (.track t) s = failStepRead t s := by
  have hm : r.issued + Config.readLimit ≤ s.time := h
  simp [timeoutRead, hr, reached, hm]

theorem timeoutRead_admin {r : PendingRead} (hr : s.readOf .admin = some r) (h : r.issued + 1000000 ≤ s.time) :
    timeoutRead .admin s = failCommandRead s := by
  have hm : r.issued + Config.readLimit ≤ s.time := h
  simp [timeoutRead, hr, reached, hm]

end Timeout

/-- Settles O23: an error of a current read forces the track into SAFE where its state allows it; a read at its limit is an error. -/
theorem readErrorsAndTimeouts : Obligations.ReadErrorsAndTimeouts := by
  refine ⟨fun k r s hd hf hr hs => ?errors, fun who s => ⟨fun r hr hm => ?limit, fun r hr hm => ?early, fun hr => ?none⟩⟩
  case errors =>
    have he := failStepRead_current hd hf hr hs
    refine ⟨fun h => congrArg Host.Outcome.next ?_, fun h => congrArg Host.Outcome.next ?_, fun h => congrArg Host.Outcome.next ?_⟩
    · rw [he, forceSafe_kept _ (.inl (by rwa [State.track_setTrack_self]))]
    · rw [he, forceSafe_notStarted _ (by rwa [State.track_setTrack_self])]
    · rw [he, forceSafe_started _ (by rwa [State.track_setTrack_self])]
  case limit =>
    cases who with
    | track k => exact ⟨_, congrArg Host.Outcome.next (timeoutRead_track hr hm), rfl⟩
    | admin => exact ⟨_, congrArg Host.Outcome.next (timeoutRead_admin hr hm), rfl⟩
  case early => exact congrArg Host.Outcome.next (timeoutRead_early hr hm)
  case none => exact congrArg Host.Outcome.next (timeoutRead_none hr)

/-! ## Retire-word writes (R24, R25) -/

/-- A retire-word write of the present retire index: the mark it leaves and the write it hands to the link (R23). -/
theorem track_writeRetireWord (t : TrackId) (s : State) :
    (writeRetireWord t s).track t = { s.track t with retireWrite := some { value := (s.track t).retire, earlier := false } } :=
  State.track_setTrack_self s t _

theorem writeRetireWord_track_ne {t k : TrackId} (s : State) (h : k ≠ t) : (writeRetireWord t s).track k = s.track k :=
  State.track_setTrack_ne s _ h

/-- The follow-up write of a completed retire-word write: the present retire index, as four little-endian bytes (R24, R25). -/
theorem writeRetireWord_followUp (t : TrackId) (s : State) :
    let c := s.track t
    let s1 := (s.dropWrite (WritePurpose.isRetireWordOf t)).setTrack t { c with retireWrite := none }
    let s2 := writeRetireWord t s1
    s2.track t = { c with retireWrite := some { value := c.retire, earlier := false } } ∧ (∀ j, j ≠ t → s2.track j = s.track j)
      ∧ s2.link.writes = s1.link.writes ++ [{ addr := c.retireAddr, data := leBytes 4 32 (BitVec.ofNat 32 c.retire)
                                              purpose := .retireWord t }]
      ∧ s2 = { s with tracks := s2.tracks, link := { s.link with writes := s2.link.writes, out := s2.link.out } } := by
  refine ⟨?_, fun j hj => ?_, ?_, rfl⟩
  · rw [track_writeRetireWord, State.track_setTrack_self]
  · exact (writeRetireWord_track_ne _ hj).trans (State.track_setTrack_ne _ _ hj)
  · simp [writeRetireWord, bytes32]

section RetireWord

variable {t : TrackId} {s : State} {w : RetireWrite} (hd : s.port.dev ≠ .resetting)
variable (hf : (s.writeOf (WritePurpose.isRetireWordOf t)).isSome = true) (hw : (s.track t).retireWrite = some w)

include hd hf hw

/-- A write of the present binding that completes without error (R24). -/
theorem completeRetireWord_done (he : w.earlier = false) :
    completeRetireWord t false s =
      if (s.track t).retire ≠ w.value then
        writeRetireWord t ((s.dropWrite (WritePurpose.isRetireWordOf t)).setTrack t { s.track t with retireWrite := none })
      else (s.dropWrite (WritePurpose.isRetireWordOf t)).setTrack t { s.track t with retireWrite := none } := by
  obtain ⟨x, hx⟩ := Option.isSome_iff_exists.mp hf
  simp [completeRetireWord, hx, hd, hw, he, State.modTrack_eq]

/-- A write of the present binding that completes with error (R24). -/
theorem completeRetireWord_error (he : w.earlier = false) :
    completeRetireWord t true s = forceSafe t .hostMemory
      ((s.dropWrite (WritePurpose.isRetireWordOf t)).setTrack t { s.track t with retireWrite := none }) := by
  obtain ⟨x, hx⟩ := Option.isSome_iff_exists.mp hf
  simp [completeRetireWord, hx, hd, hw, he, State.modTrack_eq]

/-- A write of an earlier binding that completes, with error or without (R25). -/
theorem completeRetireWord_earlier (error : Bool) (he : w.earlier = true) :
    completeRetireWord t error s =
      if (s.track t).state ≠ .unbound ∧ (s.track t).retireAddr ≠ 0 then
        writeRetireWord t ((s.dropWrite (WritePurpose.isRetireWordOf t)).setTrack t { s.track t with retireWrite := none })
      else (s.dropWrite (WritePurpose.isRetireWordOf t)).setTrack t { s.track t with retireWrite := none } := by
  obtain ⟨x, hx⟩ := Option.isSome_iff_exists.mp hf
  simp [completeRetireWord, hx, hd, hw, he, State.modTrack_eq, afterEarlierWrite, Track.bound]

end RetireWord

/-- Settles O24: the completion by the binding that issued the write and, for the present one, by its error. -/
theorem retireWordCompletes : Obligations.RetireWordCompletes := by
  refine ⟨fun k w s hd hf hw he => ⟨fun h => ?same, fun h => ?moved, fun h => ?kept, fun h => ?notStarted, fun h => ?started⟩,
    fun c k w s hc hd hf hw he => ?earlier⟩
  case same => exact congrArg Host.Outcome.next ((completeRetireWord_done hd hf hw he).trans (if_neg (not_not.mpr h)))
  case moved =>
    exact ⟨_, congrArg Host.Outcome.next ((completeRetireWord_done hd hf hw he).trans (if_pos h)), writeRetireWord_followUp k s⟩
  case kept =>
    exact congrArg Host.Outcome.next ((completeRetireWord_error hd hf hw he).trans
      (forceSafe_kept _ (by rwa [State.track_setTrack_self])))
  case notStarted =>
    exact congrArg Host.Outcome.next ((completeRetireWord_error hd hf hw he).trans
      (forceSafe_notStarted _ (by rwa [State.track_setTrack_self])))
  case started =>
    exact congrArg Host.Outcome.next ((completeRetireWord_error hd hf hw he).trans
      (forceSafe_started _ (by rwa [State.track_setTrack_self])))
  case earlier =>
    have hx : ∃ error, Completes c s (completeRetireWord k error s) := by
      rcases hc with rfl | rfl
      · exact ⟨false, rfl⟩
      · exact ⟨true, rfl⟩
    obtain ⟨error, hx⟩ := hx
    rw [completeRetireWord_earlier hd hf hw error he] at hx
    intro b s1
    constructor
    · intro h
      rwa [if_neg fun hc => h.elim hc.1 hc.2] at hx
    · intro h1 h2
      rw [if_pos ⟨h1, h2⟩] at hx
      exact ⟨_, hx, writeRetireWord_followUp k s⟩

end Sys2Proof.Machine
end

section
/-!
CERTIFICATE. What power-on leaves (R181, R190), and a step on an empty queue (R27, R99, R180).
-/

namespace Sys2Proof.Machine

/-! ## Power-on -/

section PowerOn

variable (s : State)

theorem track_powerOn (k : TrackId) : (powerOn s).track k = Track.powerOn := by simp [State.track, powerOn, State.reset]

theorem line_powerOn (l : LineId) : (powerOn s).line l = Line.powerOn := by simp [State.line, powerOn, State.reset]

theorem trip_powerOn (u : UnitId) : (powerOn s).trip u = Trip.afterReset := by simp [State.trip, powerOn, State.reset]

theorem rq_powerOn (q : QueueId) : (powerOn s).rq q = ReportQueue.absent := by simp [State.rq, powerOn, State.reset]

/-- The host port at power-on, and what is outside the part stays (log entry 8). -/
theorem powerOn_outside : (powerOn s).port = Port.powerOn ∧ (powerOn s).pins = s.pins ∧ (powerOn s).link = { Link.powerOn with
    masked := s.link.masked, msiAllowed := s.link.msiAllowed, out := s.link.out } := ⟨rfl, rfl, rfl⟩

end PowerOn

/-- Settles O4: the host port, the link and each block of `powerOn`. -/
theorem powerOnState : Obligations.PowerOnState := by
  intro s
  obtain ⟨hport, hpins, hlink⟩ := powerOn_outside s
  refine ⟨powerOn s, rfl, rfl, ?_⟩
  rw [hport, hlink]
  exact ⟨rfl, rfl, rfl, rfl, rfl, rfl, rfl, rfl, rfl, rfl, rfl, track_powerOn s, line_powerOn s, trip_powerOn s, rq_powerOn s,
    rfl, rfl, rfl, rfl, rfl, fun v => by simp [Link.powerOn], hpins, rfl, rfl, rfl⟩

/-! ## The tick -/

/-- The timed events of one track, by the state that each belongs to (R27, R66). -/
theorem mem_trackDue {s : State} {t : TrackId} {c : Instr} :
    c ∈ trackDue s t ↔
      (c = .startTimeReached t ∧ (s.track t).state = .armed ∧ reached (s.track t).startTime s.time = true)
      ∨ (c = .dueTimerExpiry t ∧ (s.track t).state = .due ∧ reached (s.track t).dueTimer s.time = true)
      ∨ (c = .timeoutTimerExpiry t ∧ (s.track t).state = .inputWait ∧ reached (s.track t).timeoutTimer s.time = true)
      ∨ (c = .holdTimerExpiry t ∧ (s.track t).state = .empty ∧ reached (s.track t).holdTimer s.time = true) := by
  simp only [trackDue, List.mem_append, List.mem_ite_nil_right, List.mem_singleton, or_assoc, and_comm]

theorem mem_sampledChanges {s : State} {l : LineId} :
    l ∈ sampledChanges s ↔ (s.line l).mode ≠ .off ∧ (s.line l).raw ≠ s.pin l := by
  simp [sampledChanges]

/-- The events that a tick finds due are those that the claims call due (R27). -/
theorem mem_dueEvents {s : State} {c : Instr} : c ∈ dueEvents s ↔ EventDue s c := by
  simp only [dueEvents, EventDue, List.mem_append, List.mem_flatMap, List.mem_map, List.mem_filter, List.mem_finRange, true_and,
    mem_trackDue, mem_sampledChanges, exists_or, or_assoc, and_comm, eq_comm]

theorem tick_eq (s : State) :
    tick s = { s with
      time := s.time + 1, sampler := Sampler.begin s.pins s.lines
      freeIndex := (tick s).freeIndex, pending := (tick s).pending } := by
  unfold tick
  dsimp only
  rw [afterOrder_eq]

/-- Whether an event is due does not rest on what the sampler holds of the tick. -/
theorem eventDue_sampler {s : State} (x : Sampler) {c : Instr} : EventDue { s with sampler := x } c ↔ EventDue s c := by
  unfold EventDue
  exact Iff.rfl

/-- What waits after a tick is what it finds due, in an order chosen freely (log entry 4). -/
theorem mem_tick_pending {s : State} {c : Instr} : c ∈ (tick s).pending ↔ EventDue { s with time := s.time + 1 } c := by
  unfold tick
  dsimp only
  rw [mem_freeOrder, mem_dueEvents, eventDue_sampler (s := { s with time := s.time + 1 })]

/-- Settles O2: the step is a tick, and what waits after it is what is due. -/
theorem emptyQueueTicks : Obligations.EmptyQueueTicks := by
  intro s hs
  have hsampler : (tick s).sampler = Sampler.begin s.pins s.lines := by rw [tick_eq]
  refine ⟨tick s, by rw [step, hs], ?_, by rw [hsampler]; rfl, fun l => ?_, fun c => mem_tick_pending⟩
  · rw [hsampler]
    exact tick_eq s
  · rw [hsampler]
    simp [Sampler.begin, State.line]

end Sys2Proof.Machine
end

section
/-!
SUPPORT. What a claim does to each line, the tag a track holds at its own position, and the state of a stop before its report.
-/

namespace Sys2Proof.Machine

/-! ## Claims, line by line (R85) -/

/-- The safe-mode results: every lane of the track takes the drive of its safe mode, and no other line changes (R86). -/
@[simp] theorem line_claimSafe (t : TrackId) (s : State) (l : LineId) :
    (claimSafe t s).line l = if (s.line l).ownedBy t then
      { s.line l with drive := safeResult (s.line l).safeMode (s.line l).drive } else s.line l := by
  rw [claimSafe, State.line_mapLines]

/-- A claim of the safe-mode results writes the line cells alone. -/
theorem claimSafe_eq (t : TrackId) (s : State) : claimSafe t s = { s with lines := (claimSafe t s).lines } := by
  unfold claimSafe State.mapLines
  rfl

/-- A LEVEL's claim writes the line cells alone. -/
theorem claimLevel_eq (t : TrackId) (mask value : BitVec 16) (s : State) :
    claimLevel t mask value s = { s with lines := (claimLevel t mask value s).lines } := by
  unfold claimLevel State.mapLines
  rfl

/-- The drive that shows a bit. -/
theorem driveOf_levelOf (b : Bool) : driveOf (levelOf b) = if b then .high else .low := by cases b <;> rfl

theorem line_claimLevel_free {t : TrackId} (mask value : BitVec 16) {s : State} {l : LineId} (h : (s.line l).owner = none) :
    (claimLevel t mask value s).line l = s.line l := by
  rw [claimLevel, State.line_mapLines, h]

/-- A lane in the mask takes its value bit, and any other lane keeps its drive (R38). -/
theorem line_claimLevel_owned {t : TrackId} (mask value : BitVec 16) {s : State} {l : LineId} {o : LaneRef}
    (h : (s.line l).owner = some o) :
    (claimLevel t mask value s).line l =
      if o.track = t ∧ mask.getLsbD o.lane.val = true then
        { s.line l with drive := if value.getLsbD o.lane.val then .high else .low }
      else s.line l := by
  simp [claimLevel, h, driveOf_levelOf]

/-! ## The tag of the track's own position (R53, R58) -/

section Tags

variable {c : Track}

theorem Track.heldTag_current {step : CurrentStep} (h : c.current = some step) : c.heldTag step.pos = recTag step.record := by
  simp [Track.heldTag, h, Option.filter]

theorem Track.heldTag_head {e : Fetched} {rest : List Fetched} (hc : c.current = none) (hp : c.prefetch = e :: rest) :
    c.heldTag e.pos = recTag e.record := by
  simp [Track.heldTag, hc, hp]

/-- A track that holds no record holds no tag. -/
theorem Track.heldTag_none (pos : Nat) (hc : c.current = none) (hp : c.prefetch = []) : c.heldTag pos = 0 := by
  simp [Track.heldTag, hc, hp]

theorem Track.nextPos_head {e : Fetched} {rest : List Fetched} (hp : c.prefetch = e :: rest) : c.nextPos = e.pos := by
  simp [Track.nextPos, hp]

theorem Track.nextPos_fetch (hp : c.prefetch = []) : c.nextPos = c.fetch := by simp [Track.nextPos, hp]

theorem Track.herePos_current {step : CurrentStep} (h : c.current = some step) : c.herePos = step.pos := by
  simp [Track.herePos, h]

theorem Track.herePos_next (h : c.current = none) : c.herePos = c.nextPos := by simp [Track.herePos, h]

end Tags

/-! ## A stop (R69, R70) -/

/-- The state in which STOPPED is handed: the records abandoned, the retire index at the post index, and the claim of the lines
choice made. -/
def stopping (t : TrackId) (lines : StopLines) (s : State) : State :=
  if lines = .park then claimSafe t (setRetire t (s.track t).post (s.modTrack t Track.abandon))
  else setRetire t (s.track t).post (s.modTrack t Track.abandon)

section Stop

variable (t : TrackId) (lines : StopLines) (s : State)

theorem track_stopping : (stopping t lines s).track t = { (s.track t).abandon with
    retire := (s.track t).post
    retireWrite := if (s.track t).retire ≠ (s.track t).post ∧ (s.track t).retireAddr ≠ 0 ∧ (s.track t).retireWrite = none
      then some { value := (s.track t).post, earlier := false } else (s.track t).retireWrite } := by
  cases lines <;> simp [stopping, Track.abandon, Track.nextEpoch, Track.idleTimers]

theorem stopping_track_ne {k : TrackId} (h : k ≠ t) : (stopping t lines s).track k = s.track k := by
  have hs := (setRetire_track_ne t (s.track t).post (s.modTrack t Track.abandon) h).trans (State.track_modTrack_ne s _ h)
  cases lines
  · exact hs
  · exact (track_claimSafe t k _).trans hs

/-- A stop reads and writes no line but by the claim of PARK. -/
theorem line_stopping (l : LineId) : (stopping t lines s).line l = if lines = .park ∧ (s.line l).ownedBy t then
    { s.line l with drive := safeResult (s.line l).safeMode (s.line l).drive } else s.line l := by
  have hs : (setRetire t (s.track t).post (s.modTrack t Track.abandon)).line l = s.line l := by
    rw [setRetire_sameBut t (s.track t).post (s.modTrack t Track.abandon)]
    rfl
  cases lines <;> simp [stopping, hs]

theorem stopping_writes : (stopping t lines s).link.writes = s.link.writes ++
    (if (s.track t).retire ≠ (s.track t).post ∧ (s.track t).retireAddr ≠ 0 ∧ (s.track t).retireWrite = none
      then [{ addr := (s.track t).retireAddr, data := leBytes 4 32 (BitVec.ofNat 32 (s.track t).post), purpose := .retireWord t }]
      else []) := by
  have hs := setRetire_writes t (s.track t).post (s.modTrack t Track.abandon)
  rw [State.track_modTrack_self] at hs
  cases lines
  · exact hs
  · rw [stopping, if_pos rfl, claimSafe_eq]
    exact hs

/-- A stop touches the track contexts, the line cells and the writes in flight, and nothing else before its report. -/
theorem stopping_eq : stopping t lines s = { s with
    tracks := (stopping t lines s).tracks, lines := (stopping t lines s).lines
    link := { s.link with writes := (stopping t lines s).link.writes, out := (stopping t lines s).link.out } } := by
  have hs := setRetire_sameBut t (s.track t).post (s.modTrack t Track.abandon)
  unfold stopping
  generalize setRetire t (s.track t).post (s.modTrack t Track.abandon) = s1 at hs
  cases lines
  · rw [if_neg (by decide), hs]
    rfl
  · rw [if_pos rfl, claimSafe_eq, hs]
    rfl

/-- STOPPED is handed with the first abandoned position, the posted count and the tag the track held there (R69). -/
theorem stopEffect_eq : stopEffect t lines s =
    handReport (s.track t).rq
      { source := BitVec.ofNat 8 t.val, tag := (s.track t).heldTag (s.track t).retire, time := s.time
        body := .trackEvent .stopped none (s.track t).retire (s.track t).posted (s.track t).post }
      (stopping t lines s) := by
  have ht := track_stopping t lines s
  have hrq : ((stopping t lines s).track t).rq = (s.track t).rq := by rw [ht]; rfl
  have hre : ((stopping t lines s).track t).retire = (s.track t).post := by rw [ht]
  have htime : (stopping t lines s).time = s.time := by rw [stopping_eq]
  change trackEvent t .stopped none _ _ _ (stopping t lines s) = _
  rw [trackEvent, hrq, hre, htime]

end Stop

end Sys2Proof.Machine
end

section
/-!
CERTIFICATE. Entry into SAFE (R53, R128 to R130), a stop and STOP-TRACK (R54, R55, R68 to R70), and PAUSE-TRACK (R52, R71).
-/

namespace Sys2Proof.Machine

/-- Settles O43: `enterSafe_eq`, with the position and the tag by what the track holds there. -/
theorem safeEntry : Obligations.SafeEntry := by
  intro k cause origin s c pos tag
  have hpos : c.herePos = pos := by
    unfold pos
    cases hc : c.current with
    | some step => exact Track.herePos_current hc
    | none =>
      rw [Track.herePos_next hc]
      cases hp : c.prefetch with
      | cons e rest => exact Track.nextPos_head hp
      | nil => exact Track.nextPos_fetch hp
  have htag : c.heldTag pos = tag := by
    unfold pos tag
    cases hc : c.current with
    | some step => exact Track.heldTag_current hc
    | none =>
      cases hp : c.prefetch with
      | cons e rest => exact Track.heldTag_head hc hp
      | nil => exact Track.heldTag_none _ hc hp
  refine ⟨claimSafe k (s.setTrack k (c.toSafe cause origin)), ?_, claimSafe_eq _ _, fun j hj => ?_, ?_,
    fun l => line_claimSafe k _ l⟩
  · rw [enterSafe_eq]
    change handReport c.rq { source := _, tag := c.heldTag c.herePos, time := _, body := .trackEvent _ _ c.herePos _ _ } _ = _
    rw [hpos, htag]
  · rw [track_claimSafe, State.track_setTrack_ne _ _ hj]
  · rw [track_claimSafe, State.track_setTrack_self]
    rfl

/-! ## STOP-TRACK (R68) -/

theorem stopAtBoundary_none {b : Byte} (h : b.toNat = 0 ∨ 2 < b.toNat) : stopAtBoundary? b = none := by
  unfold stopAtBoundary?
  generalize b.toNat = n at h
  rcases n with _ | _ | _ | n <;> simp_all

theorem stopLines_none {b : Byte} (h : b.toNat = 0 ∨ 2 < b.toNat) : stopLines? b = none := by
  unfold stopLines?
  generalize b.toNat = n at h
  rcases n with _ | _ | _ | n <;> simp_all

section StopTrack

variable {track timing lines : Byte} {k : TrackId} {s : State}

theorem stopTrackEffect_badTarget (h : 8 ≤ track.toNat) : stopTrackEffect track timing lines s = refuse .badTarget s := by
  rw [stopTrackEffect, numberBelow_eq_none.mpr h]

theorem stopTrackEffect_state (ht : track.toNat = k.val) (h : (s.track k).state = .unbound ∨ (s.track k).state = .safe) :
    stopTrackEffect track timing lines s = refuse .state s := by
  rw [stopTrackEffect, numberBelow_eq_some.mpr ht]
  exact if_pos h

theorem stopTrackEffect_badParam (ht : track.toNat = k.val) (hu : (s.track k).state ≠ .unbound) (hs : (s.track k).state ≠ .safe)
    (h : stopAtBoundary? timing = none ∨ stopLines? lines = none) :
    stopTrackEffect track timing lines s = refuse .badParam s := by
  rw [stopTrackEffect, numberBelow_eq_some.mpr ht]
  refine (if_neg (not_or.mpr ⟨hu, hs⟩)).trans ?_
  rcases h with h | h
  · rw [h]
  · rw [h]
    cases stopAtBoundary? timing <;> rfl

/-- An accepted STOP-TRACK: at the taking, unless a BOUNDARY is to be waited for (R68). -/
theorem stopTrackEffect_accepted {boundary : Bool} {choice : StopLines} (ht : track.toNat = k.val)
    (hu : (s.track k).state ≠ .unbound) (hs : (s.track k).state ≠ .safe) (hb : stopAtBoundary? timing = some boundary)
    (hl : stopLines? lines = some choice) :
    stopTrackEffect track timing lines s =
      if boundary = true ∧ ((s.track k).running = true ∨ (s.track k).state = .paused) then
        accept (s.setTrack k { s.track k with stopReq := some choice })
      else accept (stopEffect k choice s) := by
  rw [stopTrackEffect, numberBelow_eq_some.mpr ht]
  refine (if_neg (not_or.mpr ⟨hu, hs⟩)).trans ?_
  rw [hb, hl]
  rfl

end StopTrack

/-- The states of a track that STOP-TRACK may stop in which a BOUNDARY is waited for: the running ones and PAUSED (R54, R68). -/
theorem Track.atBoundary_iff {c : Track} (hu : c.state ≠ .unbound) (hs : c.state ≠ .safe) :
    (c.running = true ∨ c.state = .paused) ↔ ¬(c.state = .stopped ∨ c.state = .armed) := by
  cases h : c.state <;> simp_all [Track.running]

/-- Settles O40: `stopEffect_eq` with the parts of `stopping`, and `stopTrackEffect` by its checks. -/
theorem stopTrackResult : Obligations.StopTrackResult := by
  refine ⟨fun k choice s => ?stop, fun id track timing lines k choice pos s ht hk hu hs hl => ?taken,
    fun id track timing lines pos s ht => ?refused⟩
  case stop =>
    exact ⟨stopping k choice s, stopEffect_eq k choice s, fun j hj => stopping_track_ne k choice s hj, track_stopping k choice s,
      line_stopping k choice s, stopping_writes k choice s, stopping_eq k choice s⟩
  case taken =>
    have hrest := Track.atBoundary_iff hu hs
    have he : ∀ {boundary}, stopAtBoundary? timing = some boundary → _ := fun hb =>
      stopTrackEffect_accepted (s := s.taken) hk hu hs hb hl
    refine ⟨fun h => congrArg Host.Outcome.next (takes_answer ht ?_), fun h hr => congrArg Host.Outcome.next (takes_answer ht ?_)⟩
    · rcases h with rfl | ⟨rfl, hr⟩
      · exact (he rfl).trans (if_neg (by simp))
      · exact (he rfl).trans (if_neg fun h => hrest.mp h.2 hr)
    · subst h
      exact (he rfl).trans (if_pos ⟨rfl, hrest.mpr hr⟩)
  case refused =>
    refine ⟨fun h => congrArg Host.Outcome.next (takes_answer ht (stopTrackEffect_badTarget h)), fun k hk =>
      ⟨fun h => congrArg Host.Outcome.next (takes_answer ht (stopTrackEffect_state hk h)), fun hu hs h =>
        congrArg Host.Outcome.next (takes_answer ht (stopTrackEffect_badParam (s := s.taken) hk hu hs ?_))⟩⟩
    rcases h with rfl | h | rfl | h
    · exact .inl (stopAtBoundary_none (.inl rfl))
    · exact .inl (stopAtBoundary_none (.inr h))
    · exact .inr (stopLines_none (.inl rfl))
    · exact .inr (stopLines_none (.inr h))

/-! ## PAUSE-TRACK (R71) -/

section PauseTrack

variable {track : Byte} {k : TrackId} {s : State}

theorem pauseTrackEffect_badTarget (h : 8 ≤ track.toNat) : pauseTrackEffect track s = refuse .badTarget s := by
  rw [pauseTrackEffect, numberBelow_eq_none.mpr h]

theorem pauseTrackEffect_running {p : PausedFrom} (ht : track.toNat = k.val) (h : (s.track k).state.paused? = some p) :
    pauseTrackEffect track s = accept (s.setTrack k { s.track k with
      state := .paused, pausedFrom := some p, dueTimer := none, timeoutTimer := none, holdTimer := none }) := by
  rw [pauseTrackEffect, numberBelow_eq_some.mpr ht]
  dsimp only
  rw [h]
  rfl

theorem pauseTrackEffect_state (ht : track.toNat = k.val) (h : (s.track k).state.paused? = none) :
    pauseTrackEffect track s = refuse .state s := by
  rw [pauseTrackEffect, numberBelow_eq_some.mpr ht]
  dsimp only
  rw [h]

end PauseTrack

/-- A state that is not a running one records nothing for a pause (R52). -/
theorem TrackState.paused_none {st : TrackState} (hd : st ≠ .due) (hi : st ≠ .inputWait) (he : st ≠ .empty) :
    st.paused? = none := by
  cases st <;> simp_all [TrackState.paused?]

/-- Settles O41: `pauseTrackEffect` by the running state that the pause records. -/
theorem pauseTrackResult : Obligations.PauseTrackResult := by
  refine ⟨fun id track k pos s ht hk => ?_, fun id track pos s ht h =>
    congrArg Host.Outcome.next (takes_answer ht (pauseTrackEffect_badTarget h))⟩
  have hpause : ∀ p, (s.track k).state.paused? = some p → Completes (.pauseTrack id track) s
      (handAdminDone (s.inHand pos id (.pauseTrack track)) .ok none (s.taken.setTrack k { s.track k with
        state := .paused, pausedFrom := some p, dueTimer := none, timeoutTimer := none, holdTimer := none })) := fun p hp =>
    congrArg Host.Outcome.next (takes_answer ht (pauseTrackEffect_running (s := s.taken) hk hp))
  refine ⟨fun h => hpause _ (by rw [h]; rfl), fun h => hpause _ (by rw [h]; rfl), fun h => hpause _ (by rw [h]; rfl),
    fun hd hi he => ?_⟩
  exact congrArg Host.Outcome.next (takes_answer ht (pauseTrackEffect_state (s := s.taken) hk (TrackState.paused_none hd hi he)))

end Sys2Proof.Machine
end

section
/-!
CERTIFICATE. The events of a running track: records reaching an EMPTY track (R28, R31, R33, R49), a start time (R66), a due LEVEL
(R34, R38), and the ends of a wait (R41 to R43, R50, R77).
-/

namespace Sys2Proof.Machine

/-! ## Records reaching an EMPTY track (R49) -/

/-- A current read of an EMPTY track: its records join, the timers are idle, and the next record is taken in the same event. -/
theorem completeStepRead_empty {t : TrackId} {s : State} {r : ReadInFlight} (data : Vector StepRecord 8)
    (hd : s.port.dev ≠ .resetting) (hf : (s.readOf (.track t)).isSome = true) (hr : (s.track t).read = some r)
    (hs : r.stale = false) (he : (s.track t).state = .empty) :
    completeStepRead t data s
      = takeNext t ((s.dropRead (.track t)).setTrack t ((s.track t).join r data).idleTimers) := by
  obtain ⟨x, hx⟩ := Option.isSome_iff_exists.mp hf
  have he' : ((s.track t).join r data).state = .empty := he
  simp [completeStepRead, hx, hd, hr, hs, he', State.modTrack_eq]

/-- A checked timed head becomes current with its due time and is judged (R28, R31, R33). -/
theorem takeNext_judges {t : TrackId} {s : State} {e : Fetched} {rest : List Fetched} {d : Time}
    (hp : (s.track t).prefetch = e :: rest)
    (hc : checkRecord (s.track t).lanes.length (s.track t).loop.isSome e.record = none) (ht : Timed e.record)
    (hd : (recDueMode e.record = some .abs ∧ d = recDue e.record)
      ∨ (recDueMode e.record = some .rel ∧ d = (s.track t).refTime + recDue e.record)
      ∨ (recDueMode e.record = some .now ∧ d = s.time)) :
    takeNext t s = carryOn t (judge t { (s.track t).headStep e with due := some d }
      (s.setTrack t { s.track t with prefetch := rest, current := some { (s.track t).headStep e with due := some d } })) := by
  rw [takeNext_timed hp hc ht, dueTime_eq hd, fixAndJudge, State.modTrack_eq, State.setTrack_setTrack, State.track_setTrack_self]
  rfl

/-- The pass recorded with a head is that of the loop, or 0 (R28). -/
theorem Track.headStep_eq (c : Track) (e : Fetched) : c.headStep e =
    { record := e.record, pos := e.pos, due := none, waitStart := none
      pass := match c.loop with | some l => l.pass | none => 0 } := by
  unfold Track.headStep
  cases c.loop <;> rfl

/-- The track of a current read of an EMPTY track, as it takes its next record (R14, R49). -/
def Track.refilled (c : Track) (r : ReadInFlight) (data : Vector StepRecord 8) : Track :=
  { c with
    prefetch := fetched r data, fetch := (c.fetch + r.count) % c.sqSize, read := none
    dueTimer := none, timeoutTimer := none, holdTimer := none }

theorem Track.join_refilled {c : Track} (r : ReadInFlight) (data : Vector StepRecord 8) (h : c.prefetch = []) :
    (c.join r data).idleTimers = c.refilled r data := by
  rw [Track.join, h, List.nil_append]
  rfl

/-- A read of one record or more brings its first record to the head of the list. -/
theorem fetched_head (r : ReadInFlight) (data : Vector StepRecord 8) (h : 1 ≤ r.count) :
    fetched r data = { record := data[0], pos := r.start } :: (fetched r data).tail :=
  (List.cons_head?_tail (List.head?_eq_getElem?.trans (fetched_getElem r data (i := 0) h))).symm

/-- Settles O22: `completeStepRead_empty`; the head is judged by `takeNext_judges`, and an early one by `judge_early`. -/
theorem emptyTrackTakesHead : Obligations.EmptyTrackTakesHead := by
  intro k data r s hd hf hr hs he hp hn c row
  have hrow : Completes row s (takeNext k ((s.dropRead (.track k)).setTrack k (c.refilled r data))) := by
    have h := completeStepRead_empty data hd hf hr hs he
    rw [Track.join_refilled r data hp] at h
    exact congrArg Host.Outcome.next h
  have htrack : ((s.dropRead (.track k)).setTrack k (c.refilled r data)).track k = c.refilled r data :=
    State.track_setTrack_self _ _ _
  refine ⟨(s.dropRead (.track k)).setTrack k (c.refilled r data), hrow, rfl, rfl, fun j hj => State.track_setTrack_ne _ _ hj, ?_⟩
  generalize hs1 : (s.dropRead (.track k)).setTrack k (c.refilled r data) = s1 at hrow htrack
  have htime : s1.time = s.time := by rw [← hs1]; rfl
  rw [htrack]
  refine ⟨rfl, fetched_length r data hn, fun i hi => fetched_getElem r data hi, fun hone ht hcheck d hdue => ?_⟩
  intro step s2
  have hstep : { (s1.track k).headStep { record := data[0], pos := r.start } with due := some d } = step := by
    rw [htrack, Track.headStep_eq]
    rfl
  have hjudge : takeNext k s1 = carryOn k (judge k step s2) := by
    have h := takeNext_judges (t := k) (s := s1) (d := d) (by rw [htrack]; exact fetched_head r data hone)
      (by rw [htrack]; exact hcheck) ht (by rw [htrack, htime]; exact hdue)
    rw [hstep, htrack] at h
    exact h
  rw [hjudge] at hrow
  refine ⟨hrow, fun hearly => ?_⟩
  have hs2 : s2.track k = { c.refilled r data with prefetch := (fetched r data).tail, current := some step } :=
    State.track_setTrack_self _ _ _
  have hnow : s2.time.toNat < d.toNat := by
    change s1.time.toNat < d.toNat
    rw [htime]
    exact hearly
  rw [judge_early rfl hnow, hs2] at hrow
  rw [hs2]
  exact hrow

/-! ## A start time that is reached (R66) -/

section Start

variable {t : TrackId} {s : State} {start : Time}

/-- The state after STARTED has been handed, with this tag and position (R66). -/
def started (t : TrackId) (start : Time) (tag : BitVec 16) (pos : Nat) (s : State) : State :=
  handReport (s.track t).rq
    { source := BitVec.ofNat 8 t.val, tag := tag, time := s.time, body := .trackEvent .started none pos 0 (s.track t).retire }
    (s.setTrack t { s.track t with refTime := start, startTime := none })

theorem startTrack_eq : startTrack t start s =
    takeNext t (started t start ((s.track t).heldTag (s.track t).nextPos) (s.track t).nextPos s) := by
  unfold startTrack trackEvent started
  simp only [State.modTrack_eq, State.track_setTrack_self, State.setTrack_time]
  rfl

theorem reachStart_early (hs : (s.track t).state = .armed) (ht : (s.track t).startTime = some start) (h : s.time < start) :
    reachStart t s = s := by
  simp [reachStart, hs, ht, BitVec.not_le.mpr h]

theorem reachStart_reached (hs : (s.track t).state = .armed) (ht : (s.track t).startTime = some start) (h : start ≤ s.time) :
    reachStart t s = startTrack t start s := by
  simp [reachStart, hs, ht, h]

/-- A start with an empty list leaves the track EMPTY (R48). -/
theorem takeNext_started (tag : BitVec 16) (pos : Nat) (hp : (s.track t).prefetch = []) :
    takeNext t (started t start tag pos s) =
      (handReport (s.track t).rq
        { source := BitVec.ofNat 8 t.val, tag := tag, time := s.time, body := .trackEvent .started none pos 0 (s.track t).retire }
        s).setTrack t { s.track t with
          state := .empty, refTime := start, startTime := none, current := none, dueTimer := none, timeoutTimer := none
          holdTimer := if (s.track t).holdLimit = 0 then none
            else some (s.time + (s.track t).holdLimit.setWidth 64 * 100) } := by
  rw [takeNext_empty (by simpa [started] using hp), enterEmpty_eq, started, handReport_setTrack]
  simp

end Start

/-- Settles O45: `startTrack_eq`, with the tag and the position of the head or of the fetch index. -/
theorem startTimeStartsTrack : Obligations.StartTimeStartsTrack := by
  intro k start s hs ht c started'
  refine ⟨fun h => congrArg Host.Outcome.next (reachStart_early hs ht h), fun h hc => ?_⟩
  have hrun := (reachStart_reached hs ht h).trans startTrack_eq
  refine ⟨fun e rest hp => congrArg Host.Outcome.next ?head, fun hp => ?empty⟩
  case head =>
    rw [Track.nextPos_head hp, Track.heldTag_head hc hp] at hrun
    exact hrun
  case empty =>
    rw [Track.nextPos_fetch hp, Track.heldTag_none _ hc hp] at hrun
    exact ⟨congrArg Host.Outcome.next hrun, congrArg Host.Outcome.next (hrun.trans (takeNext_started 0 _ hp))⟩

/-! ## A step that retires with nothing to wait for -/

/-- A step that retires in silence, outside a loop, on a track with an empty list, no stop requested and no retire word: the
retire index moves past it, it is counted as applied, and the track is EMPTY (R30, R48). -/
theorem carryOn_retireStep_silent {t : TrackId} {s : State} {step : CurrentStep} {o : StepOutcome} (ho : o ≠ .skipped)
    (hn : recNotify step.record = false) (hl : (s.track t).loop = none) (hq : (s.track t).stopReq = none)
    (hp : (s.track t).prefetch = []) (hw : (s.track t).retireAddr = 0) :
    carryOn t (retireStep t step o s) = s.setTrack t { s.track t with
      state := .empty, current := none, retire := (step.pos + 1) % (s.track t).sqSize, applied := (s.track t).applied + 1
      dueTimer := none, timeoutTimer := none
      holdTimer := if (s.track t).holdLimit = 0 then none
        else some (s.time + (s.track t).holdLimit.setWidth 64 * 100) } := by
  rw [retireStep_goesOn _ _ hq, retired_silent_noWord _ hn hw, carryOn, takeNext_empty (by simpa using hp), enterEmpty_eq]
  simp [State.modTrack_eq, Track.retiredTo, Track.after, hl, ho]

/-! ## A LEVEL (R38) -/

/-- The state in which a LEVEL retires: its lanes claimed and the reference time set (R32, R38). -/
def levelDriven (t : TrackId) (step : CurrentStep) (d : Time) (s : State) : State :=
  (claimLevel t (recMask step.record) (recValue step.record) s).setTrack t { s.track t with refTime := d }

section Level

variable (t : TrackId) (step : CurrentStep) (d : Time) (s : State)

@[simp] theorem track_levelDriven : (levelDriven t step d s).track t = { s.track t with refTime := d } :=
  State.track_setTrack_self _ _ _

theorem levelDriven_track_ne {k : TrackId} (h : k ≠ t) : (levelDriven t step d s).track k = s.track k := by
  rw [levelDriven, State.track_setTrack_ne _ _ h, track_claimLevel]

theorem levelDriven_eq : levelDriven t step d s =
    { s with tracks := (levelDriven t step d s).tracks, lines := (levelDriven t step d s).lines } := by
  unfold levelDriven
  rw [claimLevel_eq]
  rfl

theorem line_levelDriven (l : LineId) : (levelDriven t step d s).line l
    = (claimLevel t (recMask step.record) (recValue step.record) s).line l := State.setTrack_line _ t _ l

theorem line_levelDriven_free {l : LineId} (h : (s.line l).owner = none) : (levelDriven t step d s).line l = s.line l := by
  rw [line_levelDriven, line_claimLevel_free _ _ h]

theorem line_levelDriven_owned {l : LineId} {o : LaneRef} (h : (s.line l).owner = some o) :
    (levelDriven t step d s).line l =
      if o.track = t ∧ (recMask step.record).getLsbD o.lane.val = true then
        { s.line l with drive := if (recValue step.record).getLsbD o.lane.val then .high else .low }
      else s.line l := by
  rw [line_levelDriven, line_claimLevel_owned _ _ h]

theorem takeEffect_level {late : Bool} (hd : step.due = some d) (hk : recKind step.record = some .level) :
    takeEffect t step late s = retireStep t step (if late then .appliedLate else .applied) (levelDriven t step d s) := by
  simp [takeEffect, hk, hd, setRef, State.modTrack_eq, levelDriven]

end Level

/-- Settles O46: `expireDue_eq` and `takeEffect_level`; in full by `carryOn_retireStep_silent`. -/
theorem dueLevelTakesEffect : Obligations.DueLevelTakesEffect := by
  refine ⟨fun k step moment s hs hc ht hm => congrArg Host.Outcome.next (expireDue_eq hs hc ht hm),
    fun k step d late s hd hk => ?effect, fun k step d moment s hs hc hd ht hm hk hn hl hq hp hw => ?inFull⟩
  case effect =>
    exact ⟨levelDriven k step d s, takeEffect_level k step d s hd hk, levelDriven_eq k step d s,
      fun j hj => levelDriven_track_ne k step d s hj, track_levelDriven k step d s,
      fun l hl => line_levelDriven_free k step d s hl, fun l o hl => line_levelDriven_owned k step d s hl⟩
  case inFull =>
    intro c
    let idle := s.setTrack k c.idleTimers
    have hidle : idle.track k = c.idleTimers := State.track_setTrack_self _ _ _
    have hdriven : (levelDriven k step d idle).track k = { c.idleTimers with refTime := d } := by rw [track_levelDriven, hidle]
    have hrun := carryOn_retireStep_silent (t := k) (s := levelDriven k step d idle) (o := .applied) (by decide) hn
      (by rw [hdriven]; exact hl) (by rw [hdriven]; exact hq) (by rw [hdriven]; exact hp) (by rw [hdriven]; exact hw)
    have htime : (levelDriven k step d idle).time = s.time := by rw [levelDriven_eq]; rfl
    rw [hdriven, htime] at hrun
    refine ⟨_, congrArg Host.Outcome.next ((expireDue_eq hs hc ht hm).trans
      ((congrArg (carryOn k) (takeEffect_level k step d idle (late := false) hd hk)).trans hrun)), ?_, fun j hj => ?_, ?_,
      fun l hl => line_levelDriven_free k step d idle hl, fun l o hl => line_levelDriven_owned k step d idle hl⟩
    · rw [levelDriven_eq]
      rfl
    · rw [State.track_setTrack_ne _ _ hj, levelDriven_track_ne _ _ _ _ hj, State.track_setTrack_ne _ _ hj]
    · rw [State.track_setTrack_self]
      rfl

/-! ## Waits (R41 to R43, R50) -/

/-- Only HIGH and LOW can hold as a WAIT begins (R41). -/
theorem heldBy_iff {cond : WaitCond} {level : Level} :
    heldBy cond level = true ↔ (cond = .high ∧ level = .high) ∨ (cond = .low ∧ level = .low) := by
  cases cond <;> simp [heldBy]

theorem metBy_iff {cond : WaitCond} {level : Level} :
    metBy cond level = true ↔ cond = .edge ∨ (level = .high ∧ (cond = .high ∨ cond = .rise))
      ∨ (level = .low ∧ (cond = .low ∨ cond = .fall)) := by
  cases cond <;> simp [metBy]

section Wait

variable {t : TrackId} {step : CurrentStep} {s : State}

theorem takeEffect_wait (late : Bool) (hk : recKind step.record = some .wait) :
    takeEffect t step late s = beginWait t step s := by
  simp [takeEffect, hk]

theorem beginWait_met {l : LineId} {cond : WaitCond} (hl : recLine step.record = some l) (hc : recCond step.record = some cond)
    (h : heldBy cond (s.line l).accepted = true) :
    beginWait t step s = retireStep t { step with waitStart := some s.time } .waitMet (s.setTrack t { s.track t with
      current := some { step with waitStart := some s.time }, refTime := s.time }) := by
  simp [beginWait, waitLevel, hl, hc, h, setRef, State.modTrack_eq]

theorem beginWait_waits {l : LineId} {cond : WaitCond} (hl : recLine step.record = some l) (hc : recCond step.record = some cond)
    (h : ¬heldBy cond (s.line l).accepted = true) :
    beginWait t step s = .rest (s.setTrack t { s.track t with
      state := .inputWait, current := some { step with waitStart := some s.time }, dueTimer := none, holdTimer := none
      timeoutTimer := if recTimeout step.record = 0 then none
        else some (s.time + (recTimeout step.record).setWidth 64) }) := by
  simp [beginWait, waitLevel, hl, hc, h, State.modTrack_eq, Track.toInputWait, Track.idleTimers]

/-- The timeout timer of a track in INPUT-WAIT that has expired (R43). -/
theorem expireTimeout_eq {moment : Time} (hs : (s.track t).state = .inputWait) (hc : (s.track t).current = some step)
    (ht : (s.track t).timeoutTimer = some moment) (hm : moment ≤ s.time) : expireTimeout t s = timeoutExpired t step s := by
  simp [expireTimeout, hs, hc, ht, reached, hm]

theorem timeoutExpired_fault (h : recOnTimeout step.record = some .fault) :
    timeoutExpired t step s = enterSafe t .waitTimeout .started s := by
  simp [timeoutExpired, h]

theorem timeoutExpired_goOn {w : Time} (hw : step.waitStart = some w) (h : recOnTimeout step.record = some .goOn) :
    timeoutExpired t step s = carryOn t (retireStep t step .waitTimeout (s.setTrack t { (s.track t).idleTimers with
      refTime := w + (recTimeout step.record).setWidth 64 })) := by
  simp [timeoutExpired, h, hw, setRef, State.modTrack_eq]

theorem expireHold_eq {moment : Time} (hs : (s.track t).state = .empty) (ht : (s.track t).holdTimer = some moment)
    (hm : moment ≤ s.time) : expireHold t s = enterSafe t .starved .started s := by
  simp [expireHold, hs, ht, reached, hm]

/-- A retirement at a new reference time with the timers idle, in silence and with nothing to wait for: how a wait ends (R42,
R43). -/
theorem carryOn_waitEnd_silent {o : StepOutcome} (ref : Time) (ho : o ≠ .skipped) (hn : recNotify step.record = false)
    (hl : (s.track t).loop = none) (hq : (s.track t).stopReq = none) (hp : (s.track t).prefetch = [])
    (hw : (s.track t).retireAddr = 0) :
    carryOn t (retireStep t step o (s.setTrack t { (s.track t).idleTimers with refTime := ref })) =
      s.setTrack t { s.track t with
        state := .empty, current := none, refTime := ref, retire := (step.pos + 1) % (s.track t).sqSize
        applied := (s.track t).applied + 1, dueTimer := none, timeoutTimer := none
        holdTimer := if (s.track t).holdLimit = 0 then none
          else some (s.time + (s.track t).holdLimit.setWidth 64 * 100) } := by
  rw [carryOn_retireStep_silent ho hn] <;> rw [State.track_setTrack_self]
  · rw [State.setTrack_setTrack]
    rfl
  · exact hl
  · exact hq
  · exact hp
  · exact hw

variable {l : LineId} {level : Level}

theorem waitAcceptance_elsewhere (h : (s.track t).state ≠ .inputWait) : waitAcceptance t l level s = s := by
  unfold waitAcceptance
  split
  · next hs _ => exact absurd hs h
  · rfl

theorem waitAcceptance_otherLine {l' : LineId} (hs : (s.track t).state = .inputWait) (hc : (s.track t).current = some step)
    (hl : recLine step.record = some l') (hne : l' ≠ l) : waitAcceptance t l level s = s := by
  cases h : recCond step.record <;> simp [waitAcceptance, hs, hc, hl, h, hne]

/-- An acceptance on the line that the track waits for (R42). -/
theorem waitAcceptance_line {cond : WaitCond} (hs : (s.track t).state = .inputWait) (hc : (s.track t).current = some step)
    (hl : recLine step.record = some l) (hk : recCond step.record = some cond) :
    waitAcceptance t l level s =
      if metBy cond level = true then
        carryOn t (retireStep t step .waitMet (s.setTrack t { (s.track t).idleTimers with refTime := s.time }))
      else s := by
  simp [waitAcceptance, hs, hc, hl, hk, setRef, State.modTrack_eq]

end Wait

/-- Settles O48: the cases of `beginWait`, `timeoutExpired` and `waitAcceptance`; the two ends in full by
`carryOn_waitEnd_silent`. -/
theorem waitsEnd : Obligations.WaitsEnd := by
  refine ⟨fun k step l cond s hl hc => ?begins, fun k step w moment s hs hc hw ht hm => ?timeout,
    fun k moment s hs ht hm => congrArg Host.Outcome.next (expireHold_eq hs ht hm), fun k l level step cond s => ?acceptance⟩
  case begins =>
    intro c begun holds
    exact ⟨fun hk late => takeEffect_wait late hk, fun h => beginWait_met hl hc (heldBy_iff.mpr h),
      fun h => beginWait_waits hl hc (mt heldBy_iff.mp h)⟩
  case timeout =>
    have he := expireTimeout_eq hs hc ht hm
    exact ⟨fun hf => congrArg Host.Outcome.next (he.trans (timeoutExpired_fault hf)),
      fun hg => congrArg Host.Outcome.next (he.trans (timeoutExpired_goOn hw hg)),
      fun hg hn hl hq hp hr => congrArg Host.Outcome.next
        ((he.trans (timeoutExpired_goOn hw hg)).trans (carryOn_waitEnd_silent _ (by decide) hn hl hq hp hr))⟩
  case acceptance =>
    intro c met
    refine ⟨waitAcceptance_elsewhere, fun hs hc l' hl hne => waitAcceptance_otherLine hs hc hl hne, fun hs hc hl hk => ?_⟩
    have he := waitAcceptance_line (level := level) hs hc hl hk
    have hends := fun h : met => he.trans (if_pos (metBy_iff.mpr h))
    exact ⟨fun h => he.trans (if_neg (mt metBy_iff.mp h)), hends,
      fun h hn hl hq hp hr => (hends h).trans (carryOn_waitEnd_silent _ (by decide) hn hl hq hp hr)⟩

end Sys2Proof.Machine
end

section
/-!
SUPPORT. What the track commands share: the row of a taken command, and the trip units that hold a track.
-/

namespace Sys2Proof.Machine

/-- The row of a taken command that answers at once completes with its answer handed (R168, R171). -/
theorem completes_answer {i : Instr} {s s2 : State} {pos : Nat} {id : BitVec 16} {c : Command} {status : Status}
    {result : Option AdminResult} (hi : exec i s = .next (completeCommandRead id c s)) (h : s.takes pos)
    (he : commandEffect id c s.taken = (.answer status result, s2)) :
    Completes i s (handAdminDone (s.inHand pos id c) status result s2) :=
  hi.trans (congrArg Host.Outcome.next (takes_answer h he))

/-- What `tripHolds` says: a FIRED unit names the track (R64, R72). -/
theorem tripHolds_iff {s : State} {t : TrackId} :
    tripHolds s t = true ↔ ∃ u, (s.trip u).state = .fired ∧ (s.trip u).mask.getLsbD t.val = true := by
  simp [tripHolds]

/-- A track is free of trip units when every FIRED one leaves it out of its mask. -/
theorem tripHolds_free {s : State} {t : TrackId}
    (h : ∀ u, (s.trip u).state = .fired → (s.trip u).mask.getLsbD t.val = false) : tripHolds s t = false := by
  refine Bool.eq_false_iff.mpr fun hh => ?_
  obtain ⟨u, hf, hm⟩ := tripHolds_iff.mp hh
  exact absurd ((h u hf).symm.trans hm) (by decide)

end Sys2Proof.Machine
end

section
/-!
CERTIFICATE. RESUME-TRACK: its checks (R72), FLUSH (R73) and CONTINUE (R74 to R78).
-/

namespace Sys2Proof.Machine

/-! ## The checks (R72) -/

theorem resumeFlush_none {b : Byte} (h1 : b ≠ 1) (h2 : b ≠ 2) : resumeFlush? b = none := by
  unfold resumeFlush?
  split
  · next h => exact absurd (BitVec.eq_of_toNat_eq h) h1
  · next h => exact absurd (BitVec.eq_of_toNat_eq h) h2
  · rfl

theorem resumeRebase_none {b : Byte} (h1 : b ≠ 1) (h2 : b ≠ 2) : resumeRebase? b = none := by
  unfold resumeRebase?
  split
  · next h => exact absurd (BitVec.eq_of_toNat_eq h) h1
  · next h => exact absurd (BitVec.eq_of_toNat_eq h) h2
  · rfl

/-- The cause is BAD-STEP exactly when it carries a subcode (R21, R131). -/
theorem any_isBadStep_iff {cause : Option SafeCause} :
    cause.any SafeCause.isBadStep = true ↔ ∃ sub, cause = some (.badStep sub) := by
  rcases cause with _ | cause
  · simp
  · cases cause <;> simp [SafeCause.isBadStep]

section Checks

variable {track action choice : Byte} {k : TrackId} {s : State}

theorem resumeTrackEffect_badTarget (h : 8 ≤ track.toNat) : resumeTrackEffect track action choice s = refuse .badTarget s := by
  rw [resumeTrackEffect, numberBelow_eq_none.mpr h]

theorem resumeTrackEffect_state (ht : track.toNat = k.val) (hp : (s.track k).state ≠ .paused) (hs : (s.track k).state ≠ .safe) :
    resumeTrackEffect track action choice s = refuse .state s := by
  rw [resumeTrackEffect, numberBelow_eq_some.mpr ht]
  exact if_pos ⟨hp, hs⟩

theorem resumeTrackEffect_flush (ht : track.toNat = k.val) (hs : (s.track k).state = .paused ∨ (s.track k).state = .safe)
    (ha : resumeFlush? action = some true) : resumeTrackEffect track action choice s = accept (flushEffect k s) := by
  rw [resumeTrackEffect, numberBelow_eq_some.mpr ht]
  refine (if_neg (not_and_or.mpr (hs.imp not_not.mpr not_not.mpr))).trans ?_
  rw [ha]

theorem resumeTrackEffect_badParam (ht : track.toNat = k.val) (hs : (s.track k).state = .paused ∨ (s.track k).state = .safe)
    (h : resumeFlush? action = none ∨ (resumeFlush? action = some false ∧ resumeRebase? choice = none)) :
    resumeTrackEffect track action choice s = refuse .badParam s := by
  rw [resumeTrackEffect, numberBelow_eq_some.mpr ht]
  refine (if_neg (not_and_or.mpr (hs.imp not_not.mpr not_not.mpr))).trans ?_
  rcases h with h | ⟨h, hc⟩
  · rw [h]
  · rw [h, hc]

/-- A CONTINUE with operands in range: refused on a SAFE track that a FIRED unit holds or that a bad step stopped (R72). -/
theorem resumeTrackEffect_continue {rebase : Bool} (ht : track.toNat = k.val)
    (hs : (s.track k).state = .paused ∨ (s.track k).state = .safe) (ha : resumeFlush? action = some false)
    (hc : resumeRebase? choice = some rebase) :
    resumeTrackEffect track action choice s =
      if (s.track k).state = .safe ∧ tripHolds s k = true then refuse .tripActive s
      else if (s.track k).state = .safe ∧ (s.track k).safeCause.any SafeCause.isBadStep = true then refuse .stepInvalid s
      else accept (continueTrack k rebase s) := by
  rw [resumeTrackEffect, numberBelow_eq_some.mpr ht]
  refine (if_neg (not_and_or.mpr (hs.imp not_not.mpr not_not.mpr))).trans ?_
  rw [ha, hc]

/-- A CONTINUE that passes the checks: on a PAUSED track, and on a SAFE one that neither a unit nor a bad step holds (R72). -/
theorem resumeTrackEffect_accepted {rebase : Bool} (ht : track.toNat = k.val)
    (hs : (s.track k).state = .paused ∨ ((s.track k).state = .safe ∧ tripHolds s k = false
      ∧ ∀ sub, (s.track k).safeCause ≠ some (.badStep sub)))
    (ha : resumeFlush? action = some false) (hc : resumeRebase? choice = some rebase) :
    resumeTrackEffect track action choice s = accept (continueTrack k rebase s) := by
  rw [resumeTrackEffect_continue ht (hs.imp_right And.left) ha hc]
  rcases hs with hp | ⟨-, hh, hb⟩
  · simp [hp]
  · have hbad : ¬(s.track k).safeCause.any SafeCause.isBadStep = true := fun h => (any_isBadStep_iff.mp h).elim hb
    simp [hh, hbad]

end Checks

/-! ## FLUSH (R73) -/

/-- The state in which a FLUSH hands RESUMED: the records abandoned, the safe cause dropped and the retire index at the post index. -/
def flushing (t : TrackId) (s : State) : State :=
  setRetire t (s.track t).post (s.modTrack t fun c => { c.abandon with safeCause := none })

section Flush

variable (t : TrackId) (s : State)

theorem track_flushing : (flushing t s).track t = { (s.track t).abandon with
    safeCause := none
    retire := (s.track t).post
    retireWrite := if (s.track t).retire ≠ (s.track t).post ∧ (s.track t).retireAddr ≠ 0 ∧ (s.track t).retireWrite = none
      then some { value := (s.track t).post, earlier := false } else (s.track t).retireWrite } := by
  simp [flushing, Track.abandon, Track.nextEpoch, Track.idleTimers]

theorem flushing_track_ne {k : TrackId} (h : k ≠ t) : (flushing t s).track k = s.track k :=
  (setRetire_track_ne t (s.track t).post _ h).trans (State.track_modTrack_ne s _ h)

/-- Before its report a FLUSH touches the track contexts and the writes in flight alone; so the lanes keep their drive. -/
theorem flushing_sameBut : SameButTracksAndWrites s (flushing t s) :=
  setRetire_sameBut t (s.track t).post (s.modTrack t fun c => { c.abandon with safeCause := none })

theorem flushing_writes : (flushing t s).link.writes = s.link.writes ++
    (if (s.track t).retire ≠ (s.track t).post ∧ (s.track t).retireAddr ≠ 0 ∧ (s.track t).retireWrite = none
      then [{ addr := (s.track t).retireAddr, data := leBytes 4 32 (BitVec.ofNat 32 (s.track t).post), purpose := .retireWord t }]
      else []) := by
  have h := setRetire_writes t (s.track t).post (s.modTrack t fun c => { c.abandon with safeCause := none })
  rw [State.track_modTrack_self] at h
  exact h

/-- RESUMED of a FLUSH names the first abandoned position, the posted count and the tag the track held there (R73, R78). -/
theorem flushEffect_eq : flushEffect t s =
    handReport (s.track t).rq
      { source := BitVec.ofNat 8 t.val, tag := (s.track t).heldTag (s.track t).retire, time := s.time
        body := .trackEvent .resumed none (s.track t).retire (s.track t).posted (s.track t).post }
      (flushing t s) := by
  have ht := track_flushing t s
  have hrq : ((flushing t s).track t).rq = (s.track t).rq := by rw [ht]; rfl
  have hre : ((flushing t s).track t).retire = (s.track t).post := by rw [ht]
  have htime : (flushing t s).time = s.time := by rw [flushing_sameBut t s]
  change trackEvent t .resumed none _ _ _ (flushing t s) = _
  rw [trackEvent, hrq, hre, htime]

end Flush

/-! ## CONTINUE (R74 to R78) -/

/-- The state after RESUMED of a CONTINUE has been handed, with this tag and position (R78). -/
def resumed (t : TrackId) (tag : BitVec 16) (pos : Nat) (s : State) : State :=
  handReport (s.track t).rq
    { source := BitVec.ofNat 8 t.val, tag := tag, time := s.time, body := .trackEvent .resumed none pos 0 (s.track t).retire } s

/-- The due time that a CONTINUE gives a step: under REBASE a REL step counts from now and a NOW step is due now; otherwise the old
one (R76). -/
theorem resumedDue_eq (r : StepRecord) (rebase : Bool) (old now : Time) :
    resumedDue r rebase old now =
      if rebase = true ∧ recDueMode r = some .rel then now + recDue r
      else if rebase = true ∧ recDueMode r = some .now then now else old := by
  unfold resumedDue
  cases rebase
  · rcases recDueMode r with _ | m
    · rfl
    · cases m <;> rfl
  · rcases recDueMode r with _ | m
    · rfl
    · cases m <;> rfl

section Continue

variable {t : TrackId} {s : State} {rebase : Bool} {step : CurrentStep}

@[simp] theorem track_resumed (tag : BitVec 16) (pos : Nat) (k : TrackId) : (resumed t tag pos s).track k = s.track k := by
  simp [resumed]

@[simp] theorem resumed_time (tag : BitVec 16) (pos : Nat) : (resumed t tag pos s).time = s.time := by simp [resumed]

/-- RESUMED reads the queue and the retire index of its track, which a changed safe cause leaves as they are. -/
theorem resumed_clearCause (tag : BitVec 16) (pos : Nat) :
    resumed t tag pos (s.setTrack t { s.track t with safeCause := none }) =
      handReport (s.track t).rq
        { source := BitVec.ofNat 8 t.val, tag := tag, time := s.time, body := .trackEvent .resumed none pos 0 (s.track t).retire }
        (s.setTrack t { s.track t with safeCause := none }) := by
  rw [resumed, State.track_setTrack_self, State.setTrack_time]

theorem reportResumed_here : reportResumed t s = resumed t ((s.track t).heldTag (s.track t).herePos) (s.track t).herePos s := rfl

theorem reportResumed_current (hc : (s.track t).current = some step) :
    reportResumed t s = resumed t (recTag step.record) step.pos s := by
  rw [reportResumed_here, Track.herePos_current hc, Track.heldTag_current hc]

theorem reportResumed_next (hc : (s.track t).current = none) :
    reportResumed t s = resumed t ((s.track t).heldTag (s.track t).nextPos) (s.track t).nextPos s := by
  rw [reportResumed_here, Track.herePos_next hc]

section Rejudge

variable {old d : Time} (hd : step.due = some old) (hdue : resumedDue step.record rebase old s.time = d)

include hd hdue

/-- A step whose effect has not begun is judged again with its due time of R76. -/
theorem rejudge_eq : rejudge t rebase step s = carryOn t (judge t { step with due := some d }
    (s.setTrack t { s.track t with current := some { step with due := some d } })) := by
  rw [rejudge, fixAndJudge, hd, Option.getD_some, hdue]
  rfl

/-- A step that is early again is DUE again (R33, R76). -/
theorem rejudge_early (h : s.time < d) :
    rejudge t rebase step s = s.setTrack t { s.track t with
      state := .due, current := some { step with due := some d }, dueTimer := some d, timeoutTimer := none, holdTimer := none } := by
  rw [rejudge_eq hd hdue, judge_early rfl (by exact BitVec.lt_def.mp h), carryOn, State.setTrack_setTrack, State.track_setTrack_self]

end Rejudge

theorem continueTrack_paused (hs : (s.track t).state = .paused) :
    continueTrack t rebase s = continuePaused t rebase (reportResumed t s) := by
  simp [continueTrack, hs]

theorem continueTrack_safe (hs : (s.track t).state = .safe) (hf : (s.track t).safeFrom = some .started) :
    continueTrack t rebase s =
      continueSafe t rebase (reportResumed t (s.setTrack t { s.track t with safeCause := none })) := by
  simp [continueTrack, hs, hf, State.modTrack_eq]

/-- A SAFE track that had not started becomes STOPPED after RESUMED, with its cause cleared and all else kept (R75). -/
theorem continueTrack_notStarted (hs : (s.track t).state = .safe) (hf : (s.track t).safeFrom = some .notStarted) :
    continueTrack t rebase s =
      (resumed t ((s.track t).heldTag (s.track t).herePos) (s.track t).herePos s).setTrack t
        { s.track t with state := .stopped, safeCause := none } := by
  have hreport : reportResumed t (s.setTrack t { s.track t with safeCause := none })
      = (resumed t ((s.track t).heldTag (s.track t).herePos) (s.track t).herePos s).setTrack t
          { s.track t with safeCause := none } := by
    rw [reportResumed_here, State.track_setTrack_self, resumed_clearCause, handReport_setTrack]
    rfl
  have hrun : continueTrack t rebase s
      = (reportResumed t (s.setTrack t { s.track t with safeCause := none })).modTrack t fun c => { c with state := .stopped } := by
    simp [continueTrack, hs, hf, State.modTrack_eq]
  rw [hrun, hreport, State.modTrack_eq, State.setTrack_setTrack, State.track_setTrack_self]

theorem continuePaused_due (hp : (s.track t).pausedFrom = some .due) (hc : (s.track t).current = some step) :
    continuePaused t rebase s = rejudge t rebase step s := by
  simp [continuePaused, hp, hc]

theorem continuePaused_wait (hp : (s.track t).pausedFrom = some .inputWait) (hc : (s.track t).current = some step) :
    continuePaused t rebase s = carryOn t (beginWait t step s) := by
  simp [continuePaused, hp, hc, restartWait]

theorem continuePaused_empty (hp : (s.track t).pausedFrom = some .empty) : continuePaused t rebase s = takeNext t s := by
  simp [continuePaused, hp]

theorem continueSafe_unbegun (hc : (s.track t).current = some step) (hw : step.waitStart = none) :
    continueSafe t rebase s = rejudge t rebase step s := by
  simp [continueSafe, hc, hw]

theorem continueSafe_waiting (hc : (s.track t).current = some step) (hw : step.waitStart ≠ none) :
    continueSafe t rebase s = carryOn t (beginWait t step s) := by
  simp [continueSafe, hc, restartWait, Option.isSome_iff_ne_none.mpr hw]

theorem continueSafe_next (hc : (s.track t).current = none) : continueSafe t rebase s = takeNext t s := by
  simp [continueSafe, hc]

end Continue

/-- Settles O42: `flushEffect_eq` with the parts of `flushing`; a CONTINUE by `continueTrack` on its three kinds of track; the checks
by `resumeTrackEffect` and its refusals. -/
theorem resumeTrackResult : Obligations.ResumeTrackResult := by
  refine ⟨fun id track choice k pos s ht hk hs => ?flush, fun id track choice k rebase pos s ht hk hch => ?continues,
    fun id track choice k pos s ht hk hs hf hch hu hb => ?notStarted, fun id track action choice s => ?checks⟩
  case flush =>
    have he := (resumeTrackEffect_flush (s := s.taken) (action := 2) (choice := choice) hk hs rfl).trans
      (congrArg accept (flushEffect_eq k s.taken))
    refine ⟨flushing k s.taken, completes_answer rfl ht he, fun j hj => flushing_track_ne k s.taken hj, track_flushing k s.taken,
      ?_, flushing_writes k s.taken⟩
    rw [flushing_sameBut k s.taken]
    rfl
  case continues =>
    intro c row h resumed' dueAgain rejudged
    have hrebase : resumeRebase? choice = some rebase := by rcases hch with ⟨rfl, rfl⟩ | ⟨rfl, rfl⟩ <;> rfl
    have hdue : ∀ (step : CurrentStep) (old : Time) {now : Time}, now = s.time →
        resumedDue step.record rebase old now = dueAgain step old :=
      fun step old _ hnow => hnow ▸ resumedDue_eq step.record rebase old _
    have hrow : ∀ {s2 : State}, resumeTrackEffect track 1 choice s.taken = accept s2 → Completes row s (handAdminDone h .ok none s2) :=
      fun he => completes_answer rfl ht he
    refine ⟨fun hs => ?paused, fun hs hf hu hb => ?safe⟩
    case paused =>
      have hrun : ∀ {s2 : State}, continuePaused k rebase (reportResumed k s.taken) = s2 → Completes row s (handAdminDone h .ok none s2) :=
        fun e => hrow ((resumeTrackEffect_accepted (s := s.taken) hk (.inl hs) rfl hrebase).trans
          (congrArg accept ((continueTrack_paused (s := s.taken) hs).trans e)))
      refine ⟨fun step old hp hc hd => ⟨hrun ?_, fun hearly => hrun ?_⟩, fun step hp hc => hrun ?_, fun hp hc => hrun ?_⟩
      · rw [continuePaused_due (by simpa using hp) (by simpa using hc), reportResumed_current (s := s.taken) hc,
          rejudge_eq hd (hdue step old (resumed_time (s := s.taken) _ _))]
        rfl
      · rw [continuePaused_due (by simpa using hp) (by simpa using hc), reportResumed_current (s := s.taken) hc,
          rejudge_early hd (hdue step old (resumed_time (s := s.taken) _ _)) (by rw [resumed_time]; exact hearly),
          track_resumed]
        rfl
      · rw [continuePaused_wait (by simpa using hp) (by simpa using hc), reportResumed_current (s := s.taken) hc]
        rfl
      · rw [continuePaused_empty (by simpa using hp), reportResumed_next (s := s.taken) hc]
        rfl
    case safe =>
      intro s0
      have h0 : s0.track k = { c with safeCause := none } := State.track_setTrack_self _ _ _
      have hres : ∀ tag at', Machine.resumed k tag at' s0 = resumed' tag at' s0 := fun tag at' => resumed_clearCause (s := s.taken) tag at'
      have hrun : ∀ {s2 : State}, continueSafe k rebase (reportResumed k s0) = s2 → Completes row s (handAdminDone h .ok none s2) :=
        fun e => hrow ((resumeTrackEffect_accepted (s := s.taken) hk (.inr ⟨hs, tripHolds_free hu, hb⟩) rfl hrebase).trans
          (congrArg accept ((continueTrack_safe (s := s.taken) hs hf).trans e)))
      have hcur : (reportResumed k s0).track k = { c with safeCause := none } := by rw [track_reportResumed, h0]
      refine ⟨fun step old hc hw hd => hrun ?_, fun step hc hw => hrun ?_, fun hc => hrun ?_⟩
      · rw [continueSafe_unbegun (by rw [hcur]; exact hc) hw, reportResumed_current (by rw [h0]; exact hc),
          rejudge_eq hd (hdue step old (resumed_time (s := s0) _ _)), hres]
      · rw [continueSafe_waiting (by rw [hcur]; exact hc) hw, reportResumed_current (by rw [h0]; exact hc), hres]
      · rw [continueSafe_next (by rw [hcur]; exact hc), reportResumed_next (by rw [h0]; exact hc), hres, h0]
        rfl
  case notStarted =>
    intro c report
    have hrebase : ∃ rebase, resumeRebase? choice = some rebase := by rcases hch with rfl | rfl <;> exact ⟨_, rfl⟩
    obtain ⟨rebase, hrebase⟩ := hrebase
    exact completes_answer rfl ht ((resumeTrackEffect_accepted (s := s.taken) hk (.inr ⟨hs, tripHolds_free hu, hb⟩) rfl hrebase).trans
      (congrArg accept (continueTrack_notStarted (s := s.taken) hs hf)))
  case checks =>
    intro status held
    refine ⟨fun h => congrArg Prod.fst (resumeTrackEffect_badTarget h), fun k hk =>
      ⟨fun hp hs => congrArg Prod.fst (resumeTrackEffect_state hk hp hs), fun hs => ⟨?_, ?_, fun ha hch => ?_⟩⟩⟩
    · rintro rfl
      exact congrArg Prod.fst (resumeTrackEffect_flush hk hs rfl)
    · rintro (⟨h1, h2⟩ | ⟨rfl, h1, h2⟩)
      · exact congrArg Prod.fst (resumeTrackEffect_badParam hk hs (.inl (resumeFlush_none h1 h2)))
      · exact congrArg Prod.fst (resumeTrackEffect_badParam hk hs (.inr ⟨rfl, resumeRebase_none h1 h2⟩))
    · subst ha
      have hrebase : ∃ rebase, resumeRebase? choice = some rebase := by rcases hch with rfl | rfl <;> exact ⟨_, rfl⟩
      obtain ⟨rebase, hrebase⟩ := hrebase
      have he := resumeTrackEffect_continue (s := s) (action := 1) hk hs rfl hrebase
      refine ⟨fun hp => ?_, fun hsafe hh => ?_, fun hsafe hh hb => ?_, fun hsafe hh hb => ?_⟩
      · exact congrArg Prod.fst (resumeTrackEffect_accepted hk (.inl hp) rfl hrebase)
      · exact congrArg Prod.fst (he.trans (if_pos ⟨hsafe, tripHolds_iff.mpr hh⟩))
      · exact congrArg Prod.fst (he.trans ((if_neg fun h => hh (tripHolds_iff.mp h.2)).trans
          (if_pos ⟨hsafe, any_isBadStep_iff.mpr hb⟩)))
      · exact congrArg Prod.fst (resumeTrackEffect_accepted hk
          (.inr ⟨hsafe, Bool.eq_false_iff.mpr (mt tripHolds_iff.mp hh), hb⟩) rfl hrebase)

end Sys2Proof.Machine
end

section
/-!
CERTIFICATE. START-TRACKS: its checks with the race of R127 (R64), a later start (R65) and a start within the event (R66).
-/

namespace Sys2Proof.Machine

/-! ## The operands -/

theorem startAt_none {b : Byte} (h1 : b ≠ 1) (h2 : b ≠ 2) : startAt? b = none := by
  unfold startAt?
  split
  · next h => exact absurd (BitVec.eq_of_toNat_eq h) h1
  · next h => exact absurd (BitVec.eq_of_toNat_eq h) h2
  · rfl

/-- NOW is 1 and AT is 2 (R191). -/
theorem startAt_some {b : Byte} (h : b = 1 ∨ b = 2) : ∃ isAt, startAt? b = some isAt ∧ (isAt = true ↔ b = 2) := by
  rcases h with rfl | rfl
  · exact ⟨false, rfl, by decide⟩
  · exact ⟨true, rfl, by decide⟩

theorem mem_maskTracks {mask : Byte} {t : TrackId} : t ∈ maskTracks mask ↔ mask.getLsbD t.val = true := by simp [maskTracks]

theorem maskTracks_nodup (mask : Byte) : (maskTracks mask).Nodup := (List.nodup_finRange 8).filter _

theorem maskTracks_single (k : TrackId) : maskTracks (1 <<< k.val) = [k] := by
  revert k
  decide

/-! ## The second check and its exception (R64, R127) -/

/-- The tracks that pass the second check: the STOPPED ones, and those that a fire of this device time has moved. -/
theorem startable_iff {s : State} {t : TrackId} :
    startable s t = true ↔ (s.track t).state = .stopped ∨ racedByFire s t = true := by simp [startable]

/-! ## Arming and starting (R65, R66) -/

/-- The state with these tracks ARMED for a moment. -/
def armAll (ts : List TrackId) (moment : Time) (s : State) : State :=
  ts.foldl (fun s' t => s'.modTrack t fun c => c.arm moment) s

/-- The state after these tracks have started, one after another in a free order. -/
def startAll (ts : List TrackId) (moment : Time) (s : State) : State :=
  (s.freeOrder ts).foldl (fun s' t => startTrack t moment s') (s.afterOrder ts)

/-- What START-TRACKS does once its checks are passed: the tracks are armed, and started if the moment is the taking (R65, R66). -/
def startEffect (ts : List TrackId) (moment : Time) (s : State) : State :=
  if moment = s.time then startAll ts moment (armAll ts moment s) else armAll ts moment s

theorem startEffect_later {ts : List TrackId} {moment : Time} {s : State} (h : moment ≠ s.time) :
    startEffect ts moment s = armAll ts moment s := if_neg h

theorem startEffect_now (ts : List TrackId) (s : State) : startEffect ts s.time s = startAll ts s.time (armAll ts s.time s) :=
  if_pos rfl

theorem track_armAll {ts : List TrackId} (hn : ts.Nodup) (moment : Time) (s : State) (k : TrackId) :
    (armAll ts moment s).track k = if k ∈ ts then (s.track k).arm moment else s.track k :=
  track_foldl_modTrack (fun c => c.arm moment) ts hn s k

theorem armAll_eq (ts : List TrackId) (moment : Time) (s : State) :
    armAll ts moment s = { s with tracks := (armAll ts moment s).tracks } := by
  induction ts generalizing s with
  | nil => rfl
  | cons t ts ih => exact ih (s.modTrack t fun c => c.arm moment)

theorem startAll_single (k : TrackId) (moment : Time) (s : State) : startAll [k] moment s = startTrack k moment s := by
  rw [startAll, freeOrder_short s (Nat.le_refl _), afterOrder_short s (Nat.le_refl _)]
  rfl

/-! ## The checks in their order (R64) -/

section Checks

variable {mask mode : Byte} {start : Time} {s : State}

theorem startTracksEffect_badParam (h : mask = 0 ∨ startAt? mode = none) :
    startTracksEffect mask mode start s = refuse .badParam s := by
  unfold startTracksEffect
  rcases h with h | h
  · cases startAt? mode with
    | none => rfl
    | some isAt => exact if_pos h
  · rw [h]

variable {isAt : Bool} (hm : mask ≠ 0) (ha : startAt? mode = some isAt)

include hm ha

theorem startTracksEffect_state {k : TrackId} (hk : mask.getLsbD k.val = true) (h : ¬startable s k = true) :
    startTracksEffect mask mode start s = refuse .state s := by
  rw [startTracksEffect, ha]
  refine (if_neg hm).trans (if_pos (List.any_eq_true.mpr ⟨k, mem_maskTracks.mpr hk, ?_⟩))
  simpa using h

variable (hs : ∀ k : TrackId, mask.getLsbD k.val = true → startable s k = true)

include hs

theorem startTracksEffect_tripActive {k : TrackId} (hk : mask.getLsbD k.val = true) (h : tripHolds s k = true) :
    startTracksEffect mask mode start s = refuse .tripActive s := by
  have hall : ¬((maskTracks mask).any fun t => !startable s t) = true := by
    simpa using fun t ht => hs t (mem_maskTracks.mp ht)
  rw [startTracksEffect, ha]
  exact (if_neg hm).trans ((if_neg hall).trans (if_pos (List.any_eq_true.mpr ⟨k, mem_maskTracks.mpr hk, h⟩)))

variable (hh : ∀ k : TrackId, mask.getLsbD k.val = true → tripHolds s k = false)

include hh

/-- A mask that passes the first three checks: the start time is checked, and then the tracks are armed and perhaps started (R64 to
R66). -/
theorem startTracksEffect_eq : startTracksEffect mask mode start s =
    if isAt = true ∧ start < s.time then refuse .badTime s
    else accept (startEffect (maskTracks mask) (if isAt = true then start else s.time) s) := by
  have hall : ¬((maskTracks mask).any fun t => !startable s t) = true := by
    simpa using fun t ht => hs t (mem_maskTracks.mp ht)
  have hfree : ¬((maskTracks mask).any fun t => tripHolds s t) = true := by
    simpa using fun t ht => hh t (mem_maskTracks.mp ht)
  rw [startTracksEffect, ha]
  refine (if_neg hm).trans ((if_neg hall).trans ((if_neg hfree).trans ?_))
  split
  · rfl
  · exact (apply_ite accept _ _ _).symm

end Checks

/-- Settles O39: the checks of `startTracksEffect` in their order; a track that races with a fire is held by that fire's unit. -/
theorem startTracksChecks : Obligations.StartTracksChecks := by
  intro id mask mode start s out bad notStopped held early raced
  have hraced : ∀ k, racedByFire s k = true ↔ raced k := fun k => racedByFire_iff
  have hgood : ¬bad → mask ≠ 0 ∧ ∃ isAt, startAt? mode = some isAt ∧ (isAt = true ↔ mode = 2) := fun h => by
    obtain ⟨hm, hmode⟩ := not_or.mp h
    exact ⟨hm, startAt_some (by tauto)⟩
  have hstopped : ¬notStopped → ∀ k : TrackId, mask.getLsbD k.val = true → startable s k = true := fun h k hk =>
    startable_iff.mpr (.inl (by_contra fun hc => h ⟨k, hk, hc⟩))
  have hfree : ¬held → ∀ k : TrackId, mask.getLsbD k.val = true → tripHolds s k = false := fun h k hk =>
    Bool.eq_false_iff.mpr fun hc => (tripHolds_iff.mp hc).elim fun u hu => h ⟨k, u, hk, hu⟩
  refine ⟨fun h => ?badParam, fun h hk => ?state, fun h hall hk => ?race, fun h hst hk => ?tripActive,
    fun h hst hfr he => ?badTime, fun h hst hfr he => ?accepted⟩
  case badParam => exact startTracksEffect_badParam (h.imp_right fun hmode => startAt_none hmode.1 hmode.2)
  case state =>
    obtain ⟨hm, isAt, ha, -⟩ := hgood h
    obtain ⟨k, hk, hs, hr⟩ := hk
    exact startTracksEffect_state hm ha hk fun hc => (startable_iff.mp hc).elim hs fun hc => hr ((hraced k).mp hc)
  case race =>
    obtain ⟨hm, isAt, ha, -⟩ := hgood h
    obtain ⟨k, hk, hr⟩ := hk
    exact startTracksEffect_tripActive hm ha (fun k hk => startable_iff.mpr ((hall k hk).imp_right (hraced k).mpr)) hk
      (tripHolds_of_racedByFire ((hraced k).mpr hr))
  case tripActive =>
    obtain ⟨hm, isAt, ha, -⟩ := hgood h
    obtain ⟨k, u, hk, hu⟩ := hk
    exact startTracksEffect_tripActive hm ha (hstopped hst) hk (tripHolds_iff.mpr ⟨u, hu⟩)
  case badTime =>
    obtain ⟨hm, isAt, ha, hat⟩ := hgood h
    exact (startTracksEffect_eq hm ha (hstopped hst) (hfree hfr)).trans (if_pos ⟨hat.mpr he.1, he.2⟩)
  case accepted =>
    obtain ⟨hm, isAt, ha, hat⟩ := hgood h
    have hout : out = _ := (startTracksEffect_eq hm ha (hstopped hst) (hfree hfr)).trans
      (if_neg fun hc => he ⟨hat.mp hc.1, hc.2⟩)
    refine ⟨congrArg Prod.fst hout, fun hmode hstart => ?_⟩
    have hnow : commandEffect id (.startTracks mask 1 start) s = _ :=
      startTracksEffect_eq (mode := 1) (isAt := false) hm rfl (hstopped hst) (hfree hfr)
    rw [hout, hnow, if_pos (hat.mpr hmode), hstart]
    rfl

/-- Settles O38: `startTracksEffect_eq` for a moment that lies ahead, and for one track at the moment of the taking. -/
theorem startTracksResult : Obligations.StartTracksResult := by
  refine ⟨fun id mask start pos s ht hm hlater hall => ?later, fun id k mode start pos s ht hmode hs hu => ?within⟩
  case later =>
    have he := startTracksEffect_eq (s := s.taken) (start := start) (mode := 2) (isAt := true) hm rfl
      (fun k hk => startable_iff.mpr (.inl (hall k hk).1)) (fun k hk => tripHolds_free (hall k hk).2)
    have hne : start ≠ s.taken.time := fun e => absurd (e ▸ hlater) (BitVec.lt_irrefl _)
    have hnot : ¬start < s.taken.time := BitVec.not_lt.mpr (BitVec.le_of_lt hlater)
    rw [if_neg fun hc => hnot hc.2, if_pos rfl, startEffect_later hne] at he
    refine ⟨armAll (maskTracks mask) start s.taken, completes_answer rfl ht he, armAll_eq _ _ _, fun k => ?_⟩
    rw [track_armAll (maskTracks_nodup mask)]
    exact if_congr mem_maskTracks rfl rfl
  case within =>
    intro mask armed
    have hts : maskTracks mask = [k] := maskTracks_single k
    have hm : mask ≠ 0 := fun e => by
      have hnone : maskTracks 0 = [] := by decide
      rw [e, hnone] at hts
      exact absurd hts (by simp)
    have hk : ∀ j : TrackId, mask.getLsbD j.val = true → j = k := fun j hj => by
      have := mem_maskTracks.mpr hj
      rwa [hts, List.mem_singleton] at this
    obtain ⟨isAt, ha, hat⟩ := startAt_some (hmode.imp_right And.left)
    have hmoment : (if isAt = true then start else s.time) = s.time := by
      split
      · next h => exact (hmode.resolve_left fun e => absurd (e ▸ hat.mp h) (by decide)).2
      · rfl
    have he := startTracksEffect_eq (s := s.taken) (start := start) hm ha
      (fun j hj => hk j hj ▸ startable_iff.mpr (.inl hs)) (fun j hj => hk j hj ▸ tripHolds_free hu)
    have hnot : ¬(isAt = true ∧ start < s.taken.time) := fun hc => by
      rw [if_pos hc.1] at hmoment
      exact absurd (hmoment ▸ hc.2) (BitVec.lt_irrefl _)
    rw [if_neg hnot, hts] at he
    have hrun : reachStart k armed = startTrack k s.time armed :=
      reachStart_reached (by rw [State.track_setTrack_self]) (by rw [State.track_setTrack_self]) (BitVec.le_refl _)
    have hstart : startEffect [k] (if isAt = true then start else s.taken.time) s.taken = startTrack k s.time armed :=
      (congrArg (startEffect [k] · s.taken) hmoment).trans ((startEffect_now [k] s.taken).trans (startAll_single k s.time armed))
    rw [hstart] at he
    exact ⟨startTrack k s.time armed, congrArg Host.Outcome.next hrun, completes_answer rfl ht he⟩

end Sys2Proof.Machine
end

section
/-!
CERTIFICATE. The commands that write a result buffer: IDENTIFY, SNAPSHOT and TRACK-STATUS, and the completion of the write (R79,
R92, R172, R175, R177).
-/

namespace Sys2Proof.Machine

/-! ## The write of the record (R172) -/

theorem bufferAligned_iff {buffer : Addr} : bufferAligned buffer = true ↔ 8 ∣ buffer.toNat := by
  simp [bufferAligned, Nat.dvd_iff_mod_eq_zero]

/-- The state in which the engine waits for the write of a result record. -/
def recordIssued (h : InHand) (buffer : Addr) (data : List Byte) (s : State) : State :=
  (writeBuffer buffer data s).setEngine (.writing h)

/-- The row of a taken command that writes a record completes with its write issued (R168, R172). -/
theorem completes_write {i : Instr} {s s2 : State} {pos : Nat} {id : BitVec 16} {c : Command} {buffer : Addr} {data : List Byte}
    (hi : exec i s = .next (completeCommandRead id c s)) (h : s.takes pos)
    (he : commandEffect id c s.taken = (.write buffer data, s2)) :
    Completes i s (recordIssued (s.inHand pos id c) buffer data s2) := by
  rw [Completes, hi, completeCommandRead_takes id c h, he]
  rfl

/-- Issuing the record moves the engine to WRITING and adds one write to the link, and leaves all else as it was. -/
theorem recordIssued_eq (h : InHand) (buffer : Addr) (data : List Byte) (s : State) :
    recordIssued h buffer data s = { s with
      admin := { s.admin with engine := .writing h }
      link := { s.link with
        writes := s.link.writes ++ [{ addr := buffer, data := data, purpose := .buffer }]
        out := s.link.out ++ [.write buffer data] } } := rfl

/-! ## The three effects (R79, R92, R177) -/

/-- The state of SNAPSHOT after its copy: with clear-glitch every glitch count is 0 (R92). -/
def glitchCleared (clear : Bool) (s : State) : State := if clear then s.mapLines fun _ c => { c with glitch := 0 } else s

theorem glitchCleared_eq (clear : Bool) (s : State) : glitchCleared clear s = { s with lines := (glitchCleared clear s).lines } := by
  cases clear
  · rfl
  · unfold glitchCleared State.mapLines
    rfl

theorem line_glitchCleared (clear : Bool) (s : State) (l : LineId) :
    (glitchCleared clear s).line l = if clear then { s.line l with glitch := 0 } else s.line l := by
  unfold glitchCleared
  split
  · exact s.line_mapLines _ l
  · rfl

section Effects

variable {buffer : Addr} {track : Byte} {k : TrackId} {s : State}

theorem identifyEffect_aligned (h : 8 ∣ buffer.toNat) : identifyEffect buffer s = (.write buffer identityRecord, s) := by
  simp [identifyEffect, bufferAligned_iff.mpr h]

theorem identifyEffect_misaligned (h : ¬8 ∣ buffer.toNat) : identifyEffect buffer s = refuse .badParam s := by
  simp [identifyEffect, mt bufferAligned_iff.mp h]

theorem snapshotEffect_aligned (clear : Bool) (h : 8 ∣ buffer.toNat) :
    snapshotEffect buffer clear s = (.write buffer (snapshotRecord s), glitchCleared clear s) := by
  simp [snapshotEffect, bufferAligned_iff.mpr h, glitchCleared]

theorem snapshotEffect_misaligned (clear : Bool) (h : ¬8 ∣ buffer.toNat) :
    snapshotEffect buffer clear s = refuse .badParam s := by
  simp [snapshotEffect, mt bufferAligned_iff.mp h]

theorem trackStatusEffect_aligned (ht : track.toNat = k.val) (h : 8 ∣ buffer.toNat) :
    trackStatusEffect track buffer s = (.write buffer (trackStatusRecord (s.track k)), s) := by
  simp [trackStatusEffect, numberBelow_eq_some.mpr ht, bufferAligned_iff.mpr h]

theorem trackStatusEffect_misaligned (ht : track.toNat = k.val) (h : ¬8 ∣ buffer.toNat) :
    trackStatusEffect track buffer s = refuse .badParam s := by
  simp [trackStatusEffect, numberBelow_eq_some.mpr ht, mt bufferAligned_iff.mp h]

theorem trackStatusEffect_badTarget (h : 8 ≤ track.toNat) : trackStatusEffect track buffer s = refuse .badTarget s := by
  rw [trackStatusEffect, numberBelow_eq_none.mpr h]

end Effects

/-! ## The completion of the write (R172, R175) -/

section Completion

variable {s : State} {h : InHand} (error : Bool) (hw : (s.writeOf WritePurpose.isBuffer).isSome) (hd : s.port.dev ≠ .resetting)

include hw hd

theorem completeBuffer_writing (he : s.admin.engine = .writing h) :
    completeBuffer error s = handAdminDone h (if error then .dmaError else .ok) none (s.dropWrite WritePurpose.isBuffer) := by
  obtain ⟨w, hw⟩ := Option.isSome_iff_exists.mp hw
  simp [completeBuffer, hw, hd, he]

/-- After an entry into FAULTED the engine is idle, and the completion ends the write alone. -/
theorem completeBuffer_idle (he : s.admin.engine = .idleWait) : completeBuffer error s = s.dropWrite WritePurpose.isBuffer := by
  obtain ⟨w, hw⟩ := Option.isSome_iff_exists.mp hw
  simp [completeBuffer, hw, hd, he]

end Completion

/-- Settles O30: the effect of each command with an aligned and with a misaligned buffer, and `completeBuffer` by the engine's
state. -/
theorem bufferCommands : Obligations.BufferCommands := by
  refine ⟨fun id buffer pos s ht ha => ?written, fun id buffer pos s ht => ⟨fun ha => ⟨?_, fun clear => ?_, fun track hlt => ?_⟩,
    fun track h => ?_⟩, fun error h s hw hd => ⟨fun he => ?_, fun he => ?_⟩⟩
  case written =>
    refine ⟨⟨_, completes_write rfl ht (identifyEffect_aligned ha), ⟨rfl, rfl, rfl, rfl⟩, rfl⟩, fun clear =>
      ⟨_, completes_write rfl ht (snapshotEffect_aligned clear ha), ?_, fun l => line_glitchCleared clear s.taken l⟩, fun track k hk =>
      ⟨_, completes_write rfl ht (trackStatusEffect_aligned hk ha), ⟨rfl, rfl, rfl, rfl⟩, rfl⟩⟩
    rw [recordIssued_eq, glitchCleared_eq]
    exact ⟨rfl, rfl, rfl, rfl⟩
  · exact completes_answer rfl ht (identifyEffect_misaligned ha)
  · exact completes_answer rfl ht (snapshotEffect_misaligned clear ha)
  · exact completes_answer rfl ht (trackStatusEffect_misaligned (k := ⟨track.toNat, hlt⟩) rfl ha)
  · exact completes_answer rfl ht (trackStatusEffect_badTarget h)
  · exact congrArg Host.Outcome.next (completeBuffer_writing error hw hd he)
  · exact congrArg Host.Outcome.next (completeBuffer_idle error hw hd he)

end Sys2Proof.Machine
end

section
/-!
CERTIFICATE. The checks of SET-LINE (R87) and of BIND-TRACK (R60) in their order, with the operands they read.
-/

namespace Sys2Proof.Machine

/-! ## The operands of SET-LINE (R87, R191) -/

theorem setLineMode_none {b : Byte} (h : 3 < b.toNat) : setLineMode? b = none := by
  unfold setLineMode?
  generalize b.toNat = n at h
  rcases n with _ | _ | _ | _ | n <;> simp_all

theorem safeMode_none {b : Byte} (h : 3 < b.toNat) : safeMode? b = none := by
  unfold safeMode?
  generalize b.toNat = n at h
  rcases n with _ | _ | _ | _ | n <;> simp_all

theorem captureMode_none {b : Byte} (h : 3 < b.toNat) : captureMode? b = none := by
  unfold captureMode?
  generalize b.toNat = n at h
  rcases n with _ | _ | _ | _ | n <;> simp_all

theorem level_eq_none {b : Byte} : level? b = none ↔ 1 < b.toNat := by
  unfold level?
  generalize b.toNat = n
  rcases n with _ | _ | n <;> simp

theorem byte_upTo_three {b : Byte} (h : ¬3 < b.toNat) : b = 0 ∨ b = 1 ∨ b = 2 ∨ b = 3 := by bv_omega

/-- A mode in range is KEEP for 0, and results in STATIC for 3 or when a STATIC line keeps its mode (R88). -/
theorem setLineMode_some {b : Byte} (h : ¬3 < b.toNat) : ∃ choice, setLineMode? b = some choice ∧ (choice = .keep ↔ b = 0)
    ∧ ∀ old, choice.resulting old = .static ↔ b = 3 ∨ (b = 0 ∧ old = .static) := by
  rcases byte_upTo_three h with rfl | rfl | rfl | rfl
  · exact ⟨.keep, rfl, by decide, by simp [ModeChoice.resulting]⟩
  · exact ⟨.give .off, rfl, by decide, by simp [ModeChoice.resulting]⟩
  · exact ⟨.give .input, rfl, by decide, by simp [ModeChoice.resulting]⟩
  · exact ⟨.give .static, rfl, by decide, by simp [ModeChoice.resulting]⟩

theorem safeMode_some {b : Byte} (h : ¬3 < b.toNat) : ∃ safe, safeMode? b = some safe := by
  rcases byte_upTo_three h with rfl | rfl | rfl | rfl <;> exact ⟨_, rfl⟩

theorem captureMode_some {b : Byte} (h : ¬3 < b.toNat) :
    ∃ capture, captureMode? b = some capture ∧ (capture = .none ↔ b = 0) := by
  rcases byte_upTo_three h with rfl | rfl | rfl | rfl
  · exact ⟨.none, rfl, by decide⟩
  · exact ⟨.rise, rfl, by decide⟩
  · exact ⟨.fall, rfl, by decide⟩
  · exact ⟨.both, rfl, by decide⟩

/-! ## The checks of SET-LINE in their order (R87) -/

section SetLine

variable {p : SetLineParams} {s : State} {l : LineId}

theorem setLineEffect_badTarget (h : 48 ≤ p.line.toNat) : setLineEffect p s = refuse .badTarget s := by
  rw [setLineEffect, numberBelow_eq_none.mpr h]

theorem setLineEffect_badCode (hl : p.line.toNat = l.val)
    (h : setLineMode? p.mode = none ∨ safeMode? p.safeMode = none ∨ captureMode? p.captureMode = none
      ∨ numberBelow 8 p.captureRq = none) : setLineEffect p s = refuse .badParam s := by
  rw [setLineEffect, numberBelow_eq_some.mpr hl]
  dsimp only
  split
  · next hmode hsafe hcapture hrq => simp [hmode, hsafe, hcapture, hrq] at h
  · rfl

/-- With its codes known SET-LINE checks the static level, the owner of the line and the capture queue, in this order. -/
theorem setLineEffect_eq {choice : ModeChoice} {safe : SafeMode} {capture : CaptureMode} {rq : QueueId} (hl : p.line.toNat = l.val)
    (hmode : setLineMode? p.mode = some choice) (hsafe : safeMode? p.safeMode = some safe)
    (hcapture : captureMode? p.captureMode = some capture) (hrq : p.captureRq.toNat = rq.val) :
    setLineEffect p s =
      if choice.resulting (s.line l).mode = .static ∧ level? p.staticLevel = none then refuse .badParam s
      else if (s.line l).mode = .track ∧ choice ≠ .keep then refuse .lineBusy s
      else if capture ≠ .none ∧ (s.rq rq).state ≠ .active then refuse .noQueue s
      else accept (applySetLine l (choice.resulting (s.line l).mode) ((level? p.staticLevel).getD .low) safe p.window capture rq
        p.interval s) := by
  rw [setLineEffect, numberBelow_eq_some.mpr hl, hmode, hsafe, hcapture, numberBelow_eq_some.mpr hrq]

/-- What the second check of SET-LINE refuses, for a line of this mode: an unknown code or queue, or an unknown static level where the
result is STATIC (R87). -/
def UnknownOperand (p : SetLineParams) (old : LineMode) : Prop :=
  3 < p.mode.toNat ∨ 3 < p.safeMode.toNat ∨ 3 < p.captureMode.toNat ∨ 8 ≤ p.captureRq.toNat
    ∨ (1 < p.staticLevel.toNat ∧ (p.mode = 3 ∨ (p.mode = 0 ∧ old = .static)))

/-- Codes in range are known, and KEEP, STATIC and NONE are told by the bytes. -/
theorem setLine_codes_known
    (h : ¬(3 < p.mode.toNat ∨ 3 < p.safeMode.toNat ∨ 3 < p.captureMode.toNat ∨ 8 ≤ p.captureRq.toNat)) :
    ∃ choice safe capture, ∃ rq : QueueId, setLineMode? p.mode = some choice ∧ safeMode? p.safeMode = some safe
      ∧ captureMode? p.captureMode = some capture ∧ p.captureRq.toNat = rq.val ∧ (choice = .keep ↔ p.mode = 0)
      ∧ (∀ old, choice.resulting old = .static ↔ p.mode = 3 ∨ (p.mode = 0 ∧ old = .static))
      ∧ (capture = .none ↔ p.captureMode = 0) := by
  obtain ⟨hm, hs, hc, hq⟩ : ¬3 < p.mode.toNat ∧ ¬3 < p.safeMode.toNat ∧ ¬3 < p.captureMode.toNat ∧ ¬8 ≤ p.captureRq.toNat := by
    simpa only [not_or] using h
  obtain ⟨choice, hmode, hkeep, hstatic⟩ := setLineMode_some hm
  obtain ⟨safe, hsafe⟩ := safeMode_some hs
  obtain ⟨capture, hcapture, hnone⟩ := captureMode_some hc
  exact ⟨choice, safe, capture, ⟨_, not_le.mp hq⟩, hmode, hsafe, hcapture, rfl, hkeep, hstatic, hnone⟩

theorem setLineEffect_badParam (hl : p.line.toNat = l.val) (h : UnknownOperand p (s.line l).mode) :
    setLineEffect p s = refuse .badParam s := by
  by_cases hcode : 3 < p.mode.toNat ∨ 3 < p.safeMode.toNat ∨ 3 < p.captureMode.toNat ∨ 8 ≤ p.captureRq.toNat
  · exact setLineEffect_badCode hl
      (hcode.imp setLineMode_none (.imp safeMode_none (.imp captureMode_none numberBelow_eq_none.mpr)))
  · obtain ⟨choice, safe, capture, rq, hmode, hsafe, hcapture, hrq, -, hstatic, -⟩ := setLine_codes_known hcode
    have hlevel : 1 < p.staticLevel.toNat ∧ (p.mode = 3 ∨ (p.mode = 0 ∧ (s.line l).mode = .static)) := by
      unfold UnknownOperand at h
      tauto
    exact (setLineEffect_eq hl hmode hsafe hcapture hrq).trans
      (if_pos ⟨(hstatic _).mpr hlevel.2, level_eq_none.mpr hlevel.1⟩)

/-- With its operands known SET-LINE answers by the owner of the line and then by the capture queue (R87). -/
theorem setLineEffect_status {q : QueueId} (hl : p.line.toNat = l.val) (hq : p.captureRq.toNat = q.val)
    (h : ¬UnknownOperand p (s.line l).mode) :
    (setLineEffect p s).1 =
      if (s.line l).mode = .track ∧ p.mode ≠ 0 then .answer .lineBusy none
      else if p.captureMode ≠ 0 ∧ (s.rq q).state ≠ .active then .answer .noQueue none
      else .answer .ok none := by
  obtain ⟨choice, safe, capture, rq, hmode, hsafe, hcapture, hrq, hkeep, hstatic, hnone⟩ :=
    setLine_codes_known (p := p) fun hc => h (by unfold UnknownOperand; tauto)
  obtain rfl : rq = q := Fin.ext (hrq.symm.trans hq)
  have hlevel : ¬(choice.resulting (s.line l).mode = .static ∧ level? p.staticLevel = none) := fun hc =>
    h (.inr (.inr (.inr (.inr ⟨level_eq_none.mp hc.2, (hstatic _).mp hc.1⟩))))
  rw [setLineEffect_eq hl hmode hsafe hcapture hrq, if_neg hlevel]
  simp only [apply_ite Prod.fst, ne_eq, hkeep, hnone]
  rfl

end SetLine

/-! ## The lane list (R60, R194) -/

section Numbers

variable {n : Nat} {bs : List Byte}

/-- Bytes read as numbers below a limit: the list of those numbers. -/
theorem mapM_numberBelow {xs : List (Fin n)} :
    bs.mapM (numberBelow n) = some xs ↔ xs.map (·.val) = bs.map (·.toNat) := by
  induction bs generalizing xs with
  | nil => cases xs <;> simp
  | cons b bs ih =>
    have hcons : (b :: bs).mapM (numberBelow n) = some xs ↔
        ∃ x, numberBelow n b = some x ∧ ∃ ys, bs.mapM (numberBelow n) = some ys ∧ x :: ys = xs := by
      simp [List.mapM_cons, Option.bind_eq_some_iff]
    rw [hcons]
    constructor
    · rintro ⟨x, hx, ys, hys, rfl⟩
      simp [ih.mp hys, numberBelow_eq_some.mp hx]
    · intro h
      cases xs with
      | nil => cases h
      | cons x ys =>
        obtain ⟨hx, hys⟩ := List.cons.inj h
        exact ⟨x, numberBelow_eq_some.mpr hx.symm, ys, ih.mpr hys, rfl⟩

/-- Every byte of a list is below a limit exactly when the list names numbers below it. -/
theorem forall_lt_iff_numbers : (∀ b ∈ bs, b.toNat < n) ↔ ∃ xs : List (Fin n), xs.map (·.val) = bs.map (·.toNat) := by
  constructor
  · intro h
    exact ⟨bs.pmap (fun b hb => ⟨b.toNat, hb⟩) h, by simp [List.map_pmap]⟩
  · rintro ⟨xs, e⟩ b hb
    have hmem : b.toNat ∈ xs.map (·.val) := e ▸ List.mem_map_of_mem hb
    obtain ⟨x, -, hx⟩ := List.mem_map.mp hmem
    exact hx ▸ x.isLt

theorem nodup_numbers_iff {xs : List (Fin n)} (e : xs.map (·.val) = bs.map (·.toNat)) : xs.Nodup ↔ bs.Nodup := by
  rw [← List.nodup_map_iff Fin.val_injective, e, List.nodup_map_iff fun _ _ => BitVec.eq_of_toNat_eq]

theorem mem_lanes_iff {lanes : List LineId} (e : lanes.map (·.val) = bs.map (·.toNat)) (l : LineId) :
    l ∈ lanes ↔ BitVec.ofNat 8 l.val ∈ bs := by
  have hl : (BitVec.ofNat 8 l.val).toNat = l.val := Nat.mod_eq_of_lt (by omega)
  have hbs : (BitVec.ofNat 8 l.val).toNat ∈ bs.map (·.toNat) ↔ BitVec.ofNat 8 l.val ∈ bs :=
    List.mem_map_of_injective fun _ _ => BitVec.eq_of_toNat_eq
  rw [← hbs, ← e, hl]
  exact (List.mem_map_of_injective Fin.val_injective).symm

end Numbers

/-! ## The operands of BIND-TRACK (R60) -/

theorem latePolicy_some_iff {b : Byte} : (∃ policy, latePolicy? b = some policy) ↔ b = 1 ∨ b = 2 ∨ b = 3 := by
  constructor
  · rintro ⟨policy, h⟩
    unfold latePolicy? at h
    split at h
    · next e => exact .inl (BitVec.eq_of_toNat_eq e)
    · next e => exact .inr (.inl (BitVec.eq_of_toNat_eq e))
    · next e => exact .inr (.inr (BitVec.eq_of_toNat_eq e))
    · cases h
  · rintro (rfl | rfl | rfl) <;> exact ⟨_, rfl⟩

/-- The operands that the third check accepts, with the values they name. -/
theorem bindOperands_eq_some {p : BindParams} {lanes : List LineId} {rq : QueueId} {policy : LatePolicy} :
    bindOperands p = some (lanes, rq, policy) ↔
      1 ≤ p.laneCount.toNat ∧ p.laneCount.toNat ≤ 16
        ∧ lanes.map (·.val) = (p.lanes.toList.take p.laneCount.toNat).map (·.toNat) ∧ lanes.Nodup
        ∧ PowerBetween 4 4096 p.sqSize.toNat ∧ 32 ∣ p.sqBase.toNat ∧ 4 ∣ p.retireAddr.toNat
        ∧ latePolicy? p.latePolicy = some policy ∧ p.rq.toNat = rq.val := by
  rw [← mapM_numberBelow, ← numberBelow_eq_some, ← ringSizeOk_iff (Nat.le_refl _), Nat.dvd_iff_mod_eq_zero,
    Nat.dvd_iff_mod_eq_zero]
  change _ ↔ _ ∧ _ ∧ laneLines p.laneCount.toNat p.lanes = some lanes ∧ _
  unfold bindOperands
  split
  · next h =>
    simp only [reduceCtorEq, false_iff]
    omega
  · next h =>
    have hcount : 1 ≤ p.laneCount.toNat ∧ p.laneCount.toNat ≤ 16 := by omega
    split
    · next lanes' rq' policy' hl hr hp =>
      have hthree : some (lanes', rq', policy') = some (lanes, rq, policy) ↔ lanes' = lanes ∧ rq' = rq ∧ policy' = policy := by simp
      rw [hl, hr, hp, Option.some_inj, Option.some_inj, Option.some_inj]
      split
      · next hc =>
        rw [hthree]
        constructor
        · rintro ⟨rfl, rfl, rfl⟩
          exact ⟨hcount.1, hcount.2, rfl, hc.1, hc.2.1, hc.2.2.1, hc.2.2.2, rfl, rfl⟩
        · rintro ⟨-, -, hl, -, -, -, -, hp, hr⟩
          exact ⟨hl, hr, hp⟩
      · next hc =>
        simp only [reduceCtorEq, false_iff]
        rintro ⟨-, -, rfl, hn, hs, hb, ha, -⟩
        exact hc ⟨hn, hs, hb, ha⟩
    · next hn =>
      simp only [reduceCtorEq, false_iff]
      rintro ⟨-, -, hl, -, -, -, -, hp, hr⟩
      exact hn _ _ _ hl hr hp

/-- The operands are in range exactly when the bytes of the record meet what R60 asks of them. -/
theorem exists_bindOperands_iff {p : BindParams} : (∃ x, bindOperands p = some x) ↔
    1 ≤ p.laneCount.toNat ∧ p.laneCount.toNat ≤ 16 ∧ (∀ b ∈ p.lanes.toList.take p.laneCount.toNat, b.toNat < 48)
      ∧ (p.lanes.toList.take p.laneCount.toNat).Nodup
      ∧ PowerBetween 4 4096 p.sqSize.toNat ∧ 32 ∣ p.sqBase.toNat ∧ 4 ∣ p.retireAddr.toNat
      ∧ (p.latePolicy = 1 ∨ p.latePolicy = 2 ∨ p.latePolicy = 3) ∧ p.rq.toNat < 8 := by
  constructor
  · rintro ⟨⟨lanes, rq, policy⟩, h⟩
    obtain ⟨h1, h2, hl, hn, hs, hb, ha, hp, hr⟩ := bindOperands_eq_some.mp h
    exact ⟨h1, h2, forall_lt_iff_numbers.mpr ⟨lanes, hl⟩, (nodup_numbers_iff hl).mp hn, hs, hb, ha, latePolicy_some_iff.mp ⟨_, hp⟩,
      hr ▸ rq.isLt⟩
  · rintro ⟨h1, h2, hl, hn, hs, hb, ha, hp, hr⟩
    obtain ⟨lanes, hl⟩ := forall_lt_iff_numbers.mp hl
    obtain ⟨policy, hp⟩ := latePolicy_some_iff.mpr hp
    exact ⟨(lanes, ⟨_, hr⟩, policy),
      bindOperands_eq_some.mpr ⟨h1, h2, hl, (nodup_numbers_iff hl).mpr hn, hs, hb, ha, hp, rfl⟩⟩

/-! ## The checks of BIND-TRACK in their order (R60) -/

/-- The state of an accepted BIND-TRACK: the context of R61 and the claim of R62. -/
def boundState (k : TrackId) (p : BindParams) (lanes : List LineId) (rq : QueueId) (policy : LatePolicy) (s : State) : State :=
  claimBind k lanes p.pattern (s.setTrack k (boundTrack (s.track k) p lanes rq policy))

section Bind

variable {p : BindParams} {s : State} {k : TrackId}

theorem bindTrackEffect_badTarget (h : 8 ≤ p.track.toNat) : bindTrackEffect p s = refuse .badTarget s := by
  rw [bindTrackEffect, numberBelow_eq_none.mpr h]

variable (hk : p.track.toNat = k.val)

include hk

theorem bindTrackEffect_state (h : (s.track k).state ≠ .unbound) : bindTrackEffect p s = refuse .state s := by
  rw [bindTrackEffect, numberBelow_eq_some.mpr hk]
  exact if_pos h

variable (hs : (s.track k).state = .unbound)

include hs

theorem bindTrackEffect_badParam (h : bindOperands p = none) : bindTrackEffect p s = refuse .badParam s := by
  rw [bindTrackEffect, numberBelow_eq_some.mpr hk]
  refine (if_neg (not_not.mpr hs)).trans ?_
  rw [h]

/-- With its operands in range BIND-TRACK checks the report queue and then the lines. -/
theorem bindTrackEffect_eq {lanes : List LineId} {rq : QueueId} {policy : LatePolicy}
    (h : bindOperands p = some (lanes, rq, policy)) :
    bindTrackEffect p s =
      if (s.rq rq).state ≠ .active then refuse .noQueue s
      else if (lanes.any fun l => (s.line l).mode = .track) = true then refuse .lineBusy s
      else accept (boundState k p lanes rq policy s) := by
  rw [bindTrackEffect, numberBelow_eq_some.mpr hk]
  refine (if_neg (not_not.mpr hs)).trans ?_
  rw [h]
  rfl

end Bind

/-- Settles O32: `setLineEffect` and `bindTrackEffect` by their checks, the operands read as the bytes of the record give them. -/
theorem setLineAndBindChecks : Obligations.SetLineAndBindChecks := by
  refine ⟨fun id p s => ?setLine, fun id p s => ?bind⟩
  case setLine =>
    intro status unknown
    refine ⟨fun h => congrArg Prod.fst (setLineEffect_badTarget h), fun l hl => ?_⟩
    refine ⟨fun h => congrArg Prod.fst (setLineEffect_badParam hl h), fun h ht hm => ?_, fun h ht q hq =>
      (setLineEffect_status hl hq h).trans (if_neg fun hc => ht.elim (absurd hc.1) hc.2)⟩
    have hq : p.captureRq.toNat < 8 := by
      simp only [unknown, not_or] at h
      omega
    exact (setLineEffect_status (q := ⟨_, hq⟩) hl rfl h).trans (if_pos ⟨ht, hm⟩)
  case bind =>
    intro status listed good
    refine ⟨fun h => congrArg Prod.fst (bindTrackEffect_badTarget h), fun k hk => ⟨fun h => congrArg Prod.fst
      (bindTrackEffect_state hk h), fun hs h => congrArg Prod.fst (bindTrackEffect_badParam hk hs ?_), fun hs h q hq => ?_⟩⟩
    · exact Option.eq_none_iff_forall_ne_some.mpr fun x hx => h (exists_bindOperands_iff.mp ⟨x, hx⟩)
    · obtain ⟨⟨lanes, rq, policy⟩, hx⟩ := exists_bindOperands_iff.mpr h
      obtain ⟨-, -, hl, -, -, -, -, -, hr⟩ := bindOperands_eq_some.mp hx
      obtain rfl : rq = q := Fin.ext (hr.symm.trans hq)
      have he := bindTrackEffect_eq hk hs hx
      have hany : (lanes.any fun l => (s.line l).mode = .track) = true ↔
          ∃ l : LineId, BitVec.ofNat 8 l.val ∈ listed ∧ (s.line l).mode = .track := by
        simp only [List.any_eq_true, decide_eq_true_eq]
        exact exists_congr fun l => and_congr_left' (mem_lanes_iff hl l)
      refine ⟨fun hq => congrArg Prod.fst (he.trans (if_pos hq)), fun hq => ⟨fun hb => ?_, fun hb => ?_⟩⟩
      · exact congrArg Prod.fst (he.trans ((if_neg (not_not.mpr hq)).trans (if_pos (hany.mpr hb))))
      · exact congrArg Prod.fst (he.trans ((if_neg (not_not.mpr hq)).trans
          (if_neg fun hc => (hany.mp hc).elim fun l hl => hb l hl.1 hl.2)))

end Sys2Proof.Machine
end

section
/-!
CERTIFICATE. An accepted BIND-TRACK (R60 to R62, R89) and UNBIND-TRACK (R59, R63).
-/

namespace Sys2Proof.Machine

/-! ## Binding (R61, R62) -/

/-- A line that enters TRACK mode: its mode, owner and drive, and the conditioner started from the pin when it was OFF (R62, R89). -/
theorem Line.bind_eq (c : Line) (pin : Level) (o : LaneRef) (b : Bool) :
    c.bind pin o (levelOf b) = { c with
      mode := .track, owner := some o, drive := if b then .high else .low
      raw := if c.mode = .off then pin else c.raw
      accepted := if c.mode = .off then pin else c.accepted
      pendingStart := if c.mode = .off then none else c.pendingStart
      windowTimer := if c.mode = .off then none else c.windowTimer
      lastRise := if c.mode = .off then none else c.lastRise
      lastFall := if c.mode = .off then none else c.lastFall } := by
  unfold Line.bind
  rw [driveOf_levelOf]
  by_cases h : c.mode = .off
  · simp only [if_pos h]
    rfl
  · simp only [if_neg h]

section Bound

variable (k : TrackId) (p : BindParams) (lanes : List LineId) (rq : QueueId) (policy : LatePolicy) (s : State)

/-- A binding touches the track contexts and the line cells alone. -/
theorem boundState_eq : boundState k p lanes rq policy s = { s with
    tracks := (boundState k p lanes rq policy s).tracks, lines := (boundState k p lanes rq policy s).lines } := by
  unfold boundState claimBind State.mapLines
  rfl

theorem track_boundState : (boundState k p lanes rq policy s).track k = boundTrack (s.track k) p lanes rq policy := by
  rw [boundState, track_claimBind, State.track_setTrack_self]

theorem boundState_track_ne {j : TrackId} (h : j ≠ k) : (boundState k p lanes rq policy s).track j = s.track j := by
  rw [boundState, track_claimBind, State.track_setTrack_ne _ _ h]

variable {lanes}

theorem line_boundState_free {l : LineId} (h : l ∉ lanes) : (boundState k p lanes rq policy s).line l = s.line l := by
  rw [boundState, claimBind, State.line_mapLines, if_neg h]
  rfl

/-- The line at place `i` of the list becomes lane `i` and takes bit `i` of the pattern. -/
theorem line_boundState_lane (hn : lanes.Nodup) {i : Fin 16} {l : LineId} (h : lanes[i.val]? = some l) :
    (boundState k p lanes rq policy s).line l =
      (s.line l).bind (s.pin l) { track := k, lane := i } (levelOf (p.pattern.getLsbD i.val)) := by
  obtain ⟨hi, rfl⟩ := List.getElem?_eq_some_iff.mp h
  have hlane : Fin.ofNat 16 i.val = i := Fin.ext (Nat.mod_eq_of_lt i.isLt)
  rw [boundState, claimBind, State.line_mapLines, if_pos (List.getElem_mem hi), hn.idxOf_getElem i.val hi, hlane]
  rfl

end Bound

/-! ## Unbinding (R63) -/

/-- The state of an accepted UNBIND-TRACK: the work dropped and every lane released. -/
def unboundState (k : TrackId) (s : State) : State := claimRelease k (s.setTrack k (s.track k).unbind)

section Unbind

variable {track : Byte} {k : TrackId} {s : State}

theorem unboundState_eq (k : TrackId) (s : State) : unboundState k s = { s with
    tracks := (unboundState k s).tracks, lines := (unboundState k s).lines } := by
  unfold unboundState claimRelease State.mapLines
  rfl

theorem track_unboundState : (unboundState k s).track k = (s.track k).unbind := by
  rw [unboundState, track_claimRelease, State.track_setTrack_self]

theorem unboundState_track_ne {j : TrackId} (h : j ≠ k) : (unboundState k s).track j = s.track j := by
  rw [unboundState, track_claimRelease, State.track_setTrack_ne _ _ h]

theorem line_unboundState (l : LineId) :
    (unboundState k s).line l = if (s.line l).ownedBy k then (s.line l).toOff else s.line l := by
  rw [unboundState, claimRelease, State.line_mapLines]
  rfl

theorem unbindTrackEffect_badTarget (h : 8 ≤ track.toNat) : unbindTrackEffect track s = refuse .badTarget s := by
  rw [unbindTrackEffect, numberBelow_eq_none.mpr h]

theorem unbindTrackEffect_state (hk : track.toNat = k.val) (hn : (s.track k).state ≠ .stopped) (hs : (s.track k).state ≠ .safe) :
    unbindTrackEffect track s = refuse .state s := by
  rw [unbindTrackEffect, numberBelow_eq_some.mpr hk]
  exact if_neg (not_or.mpr ⟨hn, hs⟩)

theorem unbindTrackEffect_accepted (hk : track.toNat = k.val) (hs : (s.track k).state = .stopped ∨ (s.track k).state = .safe) :
    unbindTrackEffect track s = accept (unboundState k s) := by
  rw [unbindTrackEffect, numberBelow_eq_some.mpr hk]
  exact if_pos hs

end Unbind

/-- Settles O37: `bindTrackEffect_eq` and `unbindTrackEffect` with the parts of the states that they leave. -/
theorem bindAndUnbindTrack : Obligations.BindAndUnbindTrack := by
  refine ⟨fun id p k rq policy lanes pos s ht hk hs h1 h2 hl hn hsize hbase haddr hp hr hq hfree => ?bind,
    fun id track k pos s ht hk hs => ?unbind, fun id track pos s ht => ⟨fun h => ?badTarget, fun k hk hn hs => ?state⟩⟩
  case bind =>
    have hops := bindOperands_eq_some.mpr ⟨h1, h2, hl, hn, hsize, hbase, haddr, hp, hr⟩
    have hany : ¬(lanes.any fun l => (s.line l).mode = .track) = true := by simpa using hfree
    have he := (bindTrackEffect_eq (s := s.taken) hk hs hops).trans ((if_neg (not_not.mpr hq)).trans (if_neg hany))
    refine ⟨boundState k p lanes rq policy s.taken, completes_answer rfl ht he, boundState_eq k p lanes rq policy s.taken,
      fun j hj => boundState_track_ne k p lanes rq policy s.taken hj, ?_,
      fun l hl => line_boundState_free k p rq policy s.taken hl, fun i l hi => ?_⟩
    · rw [track_boundState]
      rfl
    · exact (line_boundState_lane k p rq policy s.taken hn hi).trans (Line.bind_eq _ _ _ _)
  case unbind =>
    exact ⟨unboundState k s.taken, completes_answer rfl ht (unbindTrackEffect_accepted (s := s.taken) hk hs), unboundState_eq k s.taken,
      fun j hj => unboundState_track_ne hj, track_unboundState, line_unboundState⟩
  case badTarget => exact completes_answer rfl ht (unbindTrackEffect_badTarget h)
  case state => exact completes_answer rfl ht (unbindTrackEffect_state (s := s.taken) hk hn hs)

end Sys2Proof.Machine
end

section
/-!
SUPPORT. The line cells: what makes one sound, in three parts, and what the events of tracks and the consumers of an acceptance can do
to the line array: to a cell they change the drive of an owned line, the missed count and the edge times of a capturing line, and to a
track neither its lanes nor whether it is bound.
-/

namespace Sys2Proof.Machine

/-! ## The three parts of a sound cell -/

/-- The mode decides the drive, and the owner is present exactly in TRACK mode (R82, R83). -/
def Line.driven (c : Line) : Prop :=
  (c.mode = .off → c.drive = .float) ∧ (c.mode = .input → c.drive = .float) ∧ (c.mode = .static → c.drive = driveOf c.staticLevel)
    ∧ (c.owner.isSome ↔ c.mode = .track)

/-- No change is pending, and a running conditioner has accepted its raw level (R98). -/
def Line.settled (c : Line) : Prop :=
  c.pendingStart = none ∧ c.windowTimer = none ∧ (c.mode ≠ .off → c.raw = c.accepted)

/-- A running conditioner has a change towards its raw level pending, with the window timer set for it (R98, R101). -/
def Line.changing (c : Line) : Prop :=
  c.mode ≠ .off ∧ c.raw ≠ c.accepted ∧ c.window ≠ 0
    ∧ ∃ start, c.pendingStart = some start ∧ c.windowTimer = some (start + ticksOf c.window)

/-- The conditioner is SETTLED or PENDING. -/
def Line.conditioned (c : Line) : Prop := c.settled ∨ c.changing

/-- With capture mode NONE the edge times are absent (R107). -/
def Line.edged (c : Line) : Prop := c.captureMode = .none → c.lastRise = none ∧ c.lastFall = none

theorem Line.sound_iff {c : Line} : c.sound ↔ c.driven ∧ c.conditioned ∧ c.edged := by
  constructor
  · rintro ⟨hoff, hinput, hstatic, howner, hsettled, hchanging, hedges⟩
    refine ⟨⟨fun h => (hoff h).1, hinput, hstatic, howner⟩, ?_, hedges⟩
    by_cases hm : c.mode = .off
    · exact .inl ⟨(hoff hm).2.1, (hoff hm).2.2, absurd hm⟩
    · cases hp : c.pendingStart with
      | none => exact .inl ⟨hp, (hsettled hm hp).2, fun _ => (hsettled hm hp).1⟩
      | some start =>
        obtain ⟨hraw, hwindow, htimer⟩ := hchanging hm start hp
        exact .inr ⟨hm, hraw, hwindow, start, hp, htimer⟩
  · rintro ⟨⟨hoff, hinput, hstatic, howner⟩, ⟨hp, ht, hraw⟩ | ⟨hm, hraw, hwindow, start, hp, ht⟩, hedges⟩
    · exact ⟨fun h => ⟨hoff h, hp, ht⟩, hinput, hstatic, howner, fun h _ => ⟨hraw h, ht⟩, by simp [hp], hedges⟩
    · refine ⟨fun h => absurd h hm, hinput, hstatic, howner, by simp [hp], fun _ start' e => ?_, hedges⟩
      obtain rfl : start = start' := Option.some.inj (hp.symm.trans e)
      exact ⟨hraw, hwindow, ht⟩

/-- A cell that takes its raw level as accepted, with no change pending, is SETTLED (R100, R102). -/
theorem Line.accepted_settled (c : Line) : ({ c.discardPending with accepted := c.raw } : Line).settled := ⟨rfl, rfl, fun _ => rfl⟩

/-- An owner stands in TRACK mode alone, so a drive that its mode decides is that of a line with no owner (R82). -/
theorem Line.driven.owner_none {c : Line} (h : c.driven) (hm : c.mode ≠ .track) : c.owner = none := by
  obtain ⟨-, -, -, howner⟩ := h
  cases ho : c.owner with
  | none => rfl
  | some o => exact absurd (howner.mp (by simp [ho])) hm

/-! ## What touches a cell -/

/-- What the claims of its owner and the captures of its acceptances can do to a cell. -/
structure Line.Touched (c d : Line) : Prop where
  cell : d = { c with drive := d.drive, missed := d.missed, lastRise := d.lastRise, lastFall := d.lastFall }
  drive : c.owner = none → d.drive = c.drive
  edges : c.captureMode = .none → d.lastRise = c.lastRise ∧ d.lastFall = c.lastFall

namespace Line.Touched

variable {c d e : Line}

theorem refl (c : Line) : c.Touched c := ⟨rfl, fun _ => rfl, fun _ => ⟨rfl, rfl⟩⟩

theorem owner (h : c.Touched d) : d.owner = c.owner := by rw [h.cell]

theorem captureMode (h : c.Touched d) : d.captureMode = c.captureMode := by rw [h.cell]

theorem trans (h : c.Touched d) (h' : d.Touched e) : c.Touched e where
  cell := by rw [h'.cell, h.cell]
  drive ho := (h'.drive (h.owner.trans ho)).trans (h.drive ho)
  edges hc := by
    obtain ⟨hr, hf⟩ := h.edges hc
    obtain ⟨hr', hf'⟩ := h'.edges (h.captureMode.trans hc)
    exact ⟨hr'.trans hr, hf'.trans hf⟩

theorem driven (h : c.Touched d) (hc : c.driven) : d.driven := by
  obtain ⟨hoff, hinput, hstatic, howner⟩ := id hc
  have hfree : c.mode ≠ .track → d.drive = c.drive := fun hm => h.drive (hc.owner_none hm)
  rw [h.cell]
  refine ⟨fun hm => ?_, fun hm => ?_, fun hm => ?_, howner⟩ <;> dsimp only at hm ⊢ <;> rw [hfree (by rw [hm]; decide)]
  · exact hoff hm
  · exact hinput hm
  · exact hstatic hm

theorem conditioned (h : c.Touched d) (hc : c.conditioned) : d.conditioned := by
  rw [h.cell]
  exact hc

theorem edged (h : c.Touched d) (hc : c.edged) : d.edged := fun hn => by
  rw [h.captureMode] at hn
  obtain ⟨hr, hf⟩ := h.edges hn
  rw [hr, hf]
  exact hc hn

theorem sound (h : c.Touched d) (hc : c.sound) : d.sound := by
  obtain ⟨hdriven, hconditioned, hedged⟩ := Line.sound_iff.mp hc
  exact Line.sound_iff.mpr ⟨h.driven hdriven, h.conditioned hconditioned, h.edged hedged⟩

/-- A change of the drive alone, on a line that has an owner. -/
theorem of_drive (hd : d = { c with drive := d.drive }) (ho : c.owner = none → d = c) : c.Touched d where
  cell := by rw [hd]
  drive h := by rw [ho h]
  edges _ := by rw [hd]; exact ⟨rfl, rfl⟩

end Line.Touched

/-! ## What touches the line array -/

/-- The cells are touched as owners and captures touch them, and every track keeps its lanes and stays bound or unbound. -/
structure State.Touched (s0 s : State) : Prop where
  line : ∀ l, (s0.line l).Touched (s.line l)
  lanes : ∀ k, (s.track k).lanes = (s0.track k).lanes
  bound : ∀ k, (s.track k).bound = (s0.track k).bound

/-- A step of an event of a bound track keeps its lanes, and it bound. -/
theorem SameBinding.lanes_bound {c d : Track} (h : SameBinding c d) (hb : c.bound = true) : d.lanes = c.lanes ∧ d.bound = true := by
  obtain ⟨hbinding, hstate⟩ := h
  simp only [Track.binding, Prod.mk.injEq] at hbinding
  exact ⟨hbinding.1, Track.bound_iff.mpr (hstate (Track.bound_iff.mp hb))⟩

namespace State.Touched

variable {s0 s s' : State}

theorem refl (s : State) : s.Touched s := ⟨fun _ => .refl _, fun _ => rfl, fun _ => rfl⟩

/-- An operation that touches no line cell and no track. -/
theorem aside (h : s0.Touched s) (hl : s'.lines = s.lines) (ht : ∀ k, s'.track k = s.track k) : s0.Touched s' where
  line l := by
    have hline : s'.line l = s.line l := by simp only [State.line, hl]
    rw [hline]
    exact h.line l
  lanes k := by rw [ht]; exact h.lanes k
  bound k := by rw [ht]; exact h.bound k

theorem setTrack (t : TrackId) {c : Track} (h : s0.Touched s) (hl : c.lanes = (s.track t).lanes)
    (hb : c.bound = (s.track t).bound) : s0.Touched (s.setTrack t c) where
  line := h.line
  lanes k := by
    rw [State.track_setTrack]
    split
    · next e => rw [e, hl]; exact h.lanes t
    · exact h.lanes k
  bound k := by
    rw [State.track_setTrack]
    split
    · next e => rw [e, hb]; exact h.bound t
    · exact h.bound k

/-- A cell touched as a capture touches it. -/
theorem setLine (l : LineId) {c : Line} (h : s0.Touched s) (hc : (s.line l).Touched c) : s0.Touched (s.setLine l c) where
  line j := by
    rw [State.line_setLine]
    split
    · next e => rw [e]; exact (h.line l).trans hc
    · exact h.line j
  lanes := h.lanes
  bound := h.bound

/-- The events of a bound track touch the line array in this way alone. -/
theorem onTrack {t : TrackId} (h : s0.Touched s) (hb : (s.track t).bound = true) : TrackClosed t s0.Touched where
  report q r s h := h.aside (handReport_lines q r s) (handReport_track q r s)
  context c s' hc h' := by
    have hb' : (s'.track t).bound = true := (h'.bound t).trans ((h.bound t).symm.trans hb)
    obtain ⟨hlanes, hbound⟩ := hc.lanes_bound hb'
    exact h'.setTrack t hlanes (hbound.trans hb'.symm)
  claim f s' ho hd h' := {
    line := fun l => by
      rw [State.line_mapLines]
      exact (h'.line l).trans (.of_drive (hd l _) fun hn => ho l _ (by simp [Line.ownedBy, hn]))
    lanes := fun k => by rw [State.mapLines_track]; exact h'.lanes k
    bound := fun k => by rw [State.mapLines_track]; exact h'.bound k }
  retireWord addr data s h := h.aside rfl fun _ => rfl

/-! ## Fires, captures and acceptances -/

theorem forceSafe (t : TrackId) (cause : SafeCause) (h : s0.Touched s) : s0.Touched (forceSafe t cause s) := by
  unfold Machine.forceSafe
  split
  · next hc =>
    simp only [Track.canEnterSafe, Bool.and_eq_true, decide_eq_true_eq] at hc
    exact (h.onTrack (Track.bound_iff.mpr hc.1)).enterSafe cause _ h
  · exact h

theorem afterOrder {α : Type} (xs : List α) (h : s0.Touched s) : s0.Touched (s.afterOrder xs) := by
  rw [afterOrder_eq]
  exact h.aside rfl fun _ => rfl

theorem fire (u : UnitId) (cause : FireCause) (edge : Option Time) (tag : BitVec 16) (h : s0.Touched s) :
    s0.Touched (fire u cause edge tag s) :=
  (foldl_keeps (P := s0.Touched) _ (fun _ t h => h.forceSafe t _) _
    ((h.aside (s' := s.setTrip u _) rfl fun _ => rfl).afterOrder _)).aside (handReport_lines _ _ _) (handReport_track _ _ _)

theorem waitAcceptance (t : TrackId) (l : LineId) (level : Level) (h : s0.Touched s) : s0.Touched (waitAcceptance t l level s) := by
  by_cases hb : (s.track t).bound = true
  · exact (h.onTrack hb).waitAcceptance l level h
  · unfold Machine.waitAcceptance
    split
    · next hs _ => exact absurd (Track.bound_iff.mpr (by rw [hs]; decide)) hb
    · exact h

theorem captureAcceptance (l : LineId) (level : Level) (edge : Time) (delay : BitVec 16) (h : s0.Touched s) :
    s0.Touched (captureAcceptance l level edge delay s) := by
  unfold Machine.captureAcceptance
  dsimp only
  split
  · exact h
  · next hc =>
    have record : ∀ c : Line, c.captureMode ≠ .none → c.Touched (c.recordEdge level edge) := fun c hc => by
      cases level <;> exact ⟨rfl, fun _ => rfl, fun e => absurd e hc⟩
    have missed : ∀ n, (s.line l).Touched { s.line l with missed := n } := fun n => ⟨rfl, fun _ => rfl, fun _ => ⟨rfl, rfl⟩⟩
    split
    · refine State.Touched.setLine l ?_ (record _ (by rwa [State.line_setLine_self]))
      exact (h.aside (handReport_lines _ _ _) (handReport_track _ _ _)).setLine l (by rw [handReport_line]; exact missed _)
    · exact h.setLine l (record _ hc)

theorem consume (l : LineId) (level : Level) (edge : Time) (delay : BitVec 16) (x : Consumer) (h : s0.Touched s) :
    s0.Touched (consume l level edge delay s x) := by
  cases x with
  | capture => exact h.captureAcceptance l level edge delay
  | trip u =>
    change s0.Touched (tripAcceptance u l level edge s)
    unfold tripAcceptance
    dsimp only
    split
    · exact h.fire u _ _ _
    · exact h
  | track t => exact h.waitAcceptance t l level

end State.Touched

/-- An acceptance sets the accepted level of its line, and its consumers touch the line array besides (R105). -/
theorem acceptance_touched (l : LineId) (level : Level) (edge : Time) (delay : BitVec 16) (s : State) :
    (s.setLine l { s.line l with accepted := level }).Touched (acceptance l level edge delay s) :=
  foldl_keeps (P := State.Touched _) _ (fun _ x h => h.consume l level edge delay x) _ ((State.Touched.refl _).afterOrder _)

/-- An acceptance that no consumer has anything to do with sets the accepted level and nothing else. -/
theorem acceptance_unheard {l : LineId} {level : Level} {s : State} (edge : Time) (delay : BitVec 16)
    (h : consumers l (s.setLine l { s.line l with accepted := level }) = []) :
    acceptance l level edge delay s = s.setLine l { s.line l with accepted := level } := by
  unfold acceptance
  dsimp only
  rw [h]
  rfl

end Sys2Proof.Machine
end

section
/-!
SUPPORT. What an accepted SET-LINE leaves of its line (R87 to R89): the cell with its settings and its mode, the window as it applies to
a change still pending, and the edge times; and that an immediate acceptance is all it does besides.
-/

namespace Sys2Proof.Machine

/-! ## The window (R89 step 3) -/

/-- The cell under its new window: a pending change is discarded; a raw level still off the accepted one is accepted with window 0 and
becomes pending anew with another. -/
def Line.rewindowed (c : Line) (now : Time) : Line :=
  if c.raw = c.accepted then c.discardPending
  else if c.window = 0 then { c.discardPending with accepted := c.raw }
  else c.startPending now

theorem Line.rewindowed_settles {c : Line} (now : Time) (h : c.raw = c.accepted) : c.rewindowed now = c.discardPending := if_pos h

theorem Line.rewindowed_accepts {c : Line} (now : Time) (h : c.raw ≠ c.accepted) (hw : c.window = 0) :
    c.rewindowed now = { c.discardPending with accepted := c.raw } := (if_neg h).trans (if_pos hw)

theorem Line.rewindowed_restarts {c : Line} (now : Time) (h : c.raw ≠ c.accepted) (hw : c.window ≠ 0) :
    c.rewindowed now = c.startPending now := (if_neg h).trans (if_neg hw)

theorem Line.rewindowed_conditioned (c : Line) (now : Time) (h : c.mode ≠ .off) : (c.rewindowed now).conditioned := by
  unfold Line.rewindowed
  split
  · next hr => exact .inl ⟨rfl, rfl, fun _ => hr⟩
  · next hr =>
    split
    · exact .inl c.accepted_settled
    · next hw => exact .inr ⟨h, hr, hw, now, rfl, rfl⟩

/-- What the new window does, by the levels and the window of the cell as it stands (R89 step 3). -/
theorem applyWindow_branches (l : LineId) (s : State) : applyWindow l s =
    if (s.line l).raw = (s.line l).accepted then s.setLine l (s.line l).discardPending
    else if (s.line l).window = 0 then acceptance l (s.line l).raw s.time 0 (s.setLine l (s.line l).discardPending)
    else s.setLine l ((s.line l).startPending s.time) := rfl

/-- The new window gives the cell of `rewindowed`, and the consumers of an immediate acceptance touch the line array besides. -/
theorem applyWindow_touched (l : LineId) (s : State) :
    (s.setLine l ((s.line l).rewindowed s.time)).Touched (applyWindow l s) := by
  rw [applyWindow_branches, Line.rewindowed]
  split
  · exact .refl _
  · split
    · have ha := acceptance_touched l (s.line l).raw s.time 0 (s.setLine l (s.line l).discardPending)
      rw [State.line_setLine_self, State.setLine_setLine] at ha
      exact ha
    · exact .refl _

/-- Without an immediate acceptance, or with one that nobody hears, the new window moves its cell alone. -/
theorem applyWindow_eq {l : LineId} {s : State}
    (h : (s.line l).raw ≠ (s.line l).accepted → (s.line l).window = 0 →
      consumers l (s.setLine l ((s.line l).rewindowed s.time)) = []) :
    applyWindow l s = s.setLine l ((s.line l).rewindowed s.time) := by
  rw [applyWindow_branches]
  rw [Line.rewindowed] at h ⊢
  split
  · rfl
  · next hr =>
    split
    · next hw =>
      have hc := h hr hw
      rw [if_neg hr, if_pos hw] at hc
      refine (acceptance_unheard s.time 0 ?_).trans ?_ <;> rw [State.line_setLine_self, State.setLine_setLine]
      exact hc
    · rfl

/-! ## The cell that SET-LINE leaves -/

section Cell

variable (c : Line) (pin : Level) (now : Time) (m : LineMode) (level : Level) (safe : SafeMode) (window : BitVec 16)
  (capture : CaptureMode) (rq : QueueId) (interval : Bool)

/-- The line leaves OFF and starts its conditioner (R89 step 1). -/
abbrev Line.starts : Prop := c.mode = .off ∧ m ≠ .off

/-- The line enters OFF or changes its window on a running conditioner, and drops a pending change (R89 steps 2 and 3). -/
abbrev Line.drops : Prop := (c.mode ≠ .off ∧ m = .off) ∨ (m ≠ .off ∧ c.window ≠ window)

/-- A changed window finds a raw level off the accepted one: it is accepted or becomes pending anew (R89 step 3). -/
abbrev Line.restarts : Prop := ¬c.starts m ∧ m ≠ .off ∧ c.window ≠ window ∧ c.raw ≠ c.accepted

/-- The cell with its settings and its mode: a line that leaves OFF has started its conditioner, one that enters OFF has dropped a
pending change (R87, R88, R89 steps 1 and 2). -/
def Line.configured : Line :=
  let d := (c.withSettings safe window capture rq interval).withMode m level
  if c.mode = .off ∧ m ≠ .off then d.startConditioner pin
  else if c.mode ≠ .off ∧ m = .off then d.discardPending
  else d

/-- The cell after R89 step 3: a window that has changed on a running conditioner applies. -/
def Line.windowed : Line :=
  let d := c.configured pin m level safe window capture rq interval
  if m ≠ .off ∧ c.window ≠ window then d.rewindowed now else d

/-- The mode can result from SET-LINE: TRACK and PARKED cannot be given, and a line in TRACK mode keeps it (R87, R88). -/
def Line.canBecome : Prop := m = .track ∨ m = .parked ∨ c.mode = .track → m = c.mode

/-- The drive that follows from the resulting mode (R88). -/
def Line.driveIn : Drive :=
  match m with
  | .off => .float
  | .input => .float
  | .static => driveOf level
  | .track => c.drive
  | .parked => c.drive

/-- The cell after SET-LINE (R87 to R89). -/
def Line.setTo : Line :=
  let d := c.windowed pin now m level safe window capture rq interval
  if c.captureMode ≠ capture ∨ c.interval ≠ interval then d.forgetEdges else d

variable {c m}

theorem Line.configured_eq (hm : c.canBecome m) : c.configured pin m level safe window capture rq interval = { c with
    mode := m
    drive := c.driveIn m level
    staticLevel := if m = .static then level else c.staticLevel
    safeMode := safe, window := window, captureMode := capture, captureRq := rq, interval := interval
    raw := if c.starts m then pin else c.raw
    accepted := if c.starts m then pin else c.accepted
    pendingStart := if c.starts m ∨ (c.mode ≠ .off ∧ m = .off) then none else c.pendingStart
    windowTimer := if c.starts m ∨ (c.mode ≠ .off ∧ m = .off) then none else c.windowTimer
    lastRise := if c.starts m then none else c.lastRise
    lastFall := if c.starts m then none else c.lastFall } := by
  have hmode : ((c.withSettings safe window capture rq interval).withMode m level) = { c with
      mode := m
      drive := c.driveIn m level
      staticLevel := if m = .static then level else c.staticLevel
      safeMode := safe, window := window, captureMode := capture, captureRq := rq, interval := interval } := by
    cases m
    case track => obtain ⟨mode⟩ := c; obtain rfl : LineMode.track = mode := hm (.inl rfl); rfl
    case parked => obtain ⟨mode⟩ := c; obtain rfl : LineMode.parked = mode := hm (.inr (.inl rfl)); rfl
    all_goals rfl
  unfold Line.configured
  dsimp only
  rw [hmode]
  by_cases hstart : c.starts m
  · simp only [if_pos hstart, if_pos (Or.inl hstart)]
    rfl
  · by_cases hstop : c.mode ≠ .off ∧ m = .off
    · simp only [if_neg hstart, if_pos hstop, if_pos (Or.inr hstop)]
      rfl
    · simp only [if_neg hstart, if_neg hstop, if_neg (not_or.mpr ⟨hstart, hstop⟩)]

/-- The cell under its new window, field by field. -/
theorem Line.windowed_eq (hm : c.canBecome m) : c.windowed pin now m level safe window capture rq interval = { c with
    mode := m
    drive := c.driveIn m level
    staticLevel := if m = .static then level else c.staticLevel
    safeMode := safe, window := window, captureMode := capture, captureRq := rq, interval := interval
    raw := if c.starts m then pin else c.raw
    accepted := if c.starts m then pin else if c.restarts m window ∧ window = 0 then c.raw else c.accepted
    pendingStart := if c.restarts m window ∧ window ≠ 0 then some now
      else if c.starts m ∨ c.drops m window then none else c.pendingStart
    windowTimer := if c.restarts m window ∧ window ≠ 0 then some (now + ticksOf window)
      else if c.starts m ∨ c.drops m window then none else c.windowTimer
    lastRise := if c.starts m then none else c.lastRise
    lastFall := if c.starts m then none else c.lastFall } := by
  unfold Line.windowed
  dsimp only
  rw [Line.configured_eq _ _ _ _ _ _ _ hm]
  by_cases hw : m ≠ .off ∧ c.window ≠ window
  · have hd : c.starts m ∨ c.drops m window := .inr (.inr hw)
    rw [if_pos hw]
    by_cases hn : c.restarts m window
    · obtain ⟨hs, -, -, hr⟩ := id hn
      simp only [if_neg hs]
      by_cases h0 : window = 0
      · simp only [if_pos (And.intro hn h0), if_neg fun h : _ ∧ window ≠ 0 => h.2 h0, if_pos hd]
        exact Line.rewindowed_accepts now hr h0
      · simp only [if_neg fun h : _ ∧ window = 0 => h0 h.2, if_pos (And.intro hn h0)]
        exact Line.rewindowed_restarts now hr h0
    · simp only [if_neg fun h : _ ∧ window = 0 => hn h.1, if_neg fun h : _ ∧ window ≠ 0 => hn h.1, if_pos hd]
      refine Line.rewindowed_settles now ?_
      dsimp only
      split
      · rfl
      · next hs => exact not_not.mp fun hr => hn ⟨hs, hw.1, hw.2, hr⟩
  · have hn : ¬c.restarts m window := fun h => hw ⟨h.2.1, h.2.2.1⟩
    have hd : c.drops m window ↔ c.mode ≠ .off ∧ m = .off := or_iff_left hw
    simp only [if_neg hw, if_neg fun h : _ ∧ window = 0 => hn h.1, if_neg fun h : _ ∧ window ≠ 0 => hn h.1, hd]

variable {pin now level safe window capture rq interval}

/-- With the window as it was, or in OFF, the conditioner is SETTLED or PENDING already. -/
theorem Line.configured_conditioned (hm : c.canBecome m) (h : c.conditioned) (hw : m = .off ∨ c.window = window) :
    (c.configured pin m level safe window capture rq interval).conditioned := by
  rw [Line.configured_eq _ _ _ _ _ _ _ hm]
  by_cases hs : c.starts m
  · exact .inl (by simp only [Line.settled, if_pos hs, if_pos (Or.inl hs), implies_true, and_self])
  · simp only [if_neg hs]
    by_cases hstop : c.mode ≠ .off ∧ m = .off
    · simp only [if_pos (Or.inr hstop)]
      exact .inl ⟨rfl, rfl, fun hn => absurd hstop.2 hn⟩
    · simp only [if_neg (not_or.mpr ⟨hs, hstop⟩)]
      have hmode : c.mode = .off ↔ m = .off :=
        ⟨fun e => not_not.mp fun ho => hs ⟨e, ho⟩, fun e => not_not.mp fun hc => hstop ⟨hc, e⟩⟩
      rcases h with ⟨hp, ht, hr⟩ | ⟨hn, hr, hw0, start, hp, ht⟩
      · exact .inl ⟨hp, ht, fun ho => hr (mt hmode.mp ho)⟩
      · obtain rfl := hw.resolve_left (mt hmode.mpr hn)
        exact .inr ⟨mt hmode.mpr hn, hr, hw0, start, hp, ht⟩

/-- A changed window that finds the raw level off the accepted one is no matter of a line that has just left OFF. -/
theorem Line.restarts_of_configured (hm : c.canBecome m) (hw : m ≠ .off ∧ c.window ≠ window)
    (hr : (c.configured pin m level safe window capture rq interval).raw
      ≠ (c.configured pin m level safe window capture rq interval).accepted) :
    c.restarts m window ∧ (c.configured pin m level safe window capture rq interval).window = window := by
  rw [Line.configured_eq _ _ _ _ _ _ _ hm] at hr ⊢
  refine ⟨?_, rfl⟩
  dsimp only at hr
  split at hr
  · exact absurd rfl hr
  · next hs => exact ⟨hs, hw.1, hw.2, hr⟩

theorem Line.windowed_driven (hm : c.canBecome m) (h : c.driven) :
    (c.windowed pin now m level safe window capture rq interval).driven := by
  obtain ⟨-, -, -, howner⟩ := h
  rw [Line.windowed_eq _ _ _ _ _ _ _ _ hm]
  refine ⟨fun e => ?_, fun e => ?_, fun e => ?_, howner.trans ?_⟩
  · dsimp only at e ⊢; rw [e]; rfl
  · dsimp only at e ⊢; rw [e]; rfl
  · dsimp only at e ⊢; rw [e]; rfl
  · exact ⟨fun e => (hm (.inr (.inr e))).trans e, fun e => (hm (.inl e)).symm.trans e⟩

theorem Line.windowed_conditioned (hm : c.canBecome m) (h : c.conditioned) :
    (c.windowed pin now m level safe window capture rq interval).conditioned := by
  unfold Line.windowed
  dsimp only
  split
  · next hw =>
    refine Line.rewindowed_conditioned _ now ?_
    rw [Line.configured_eq _ _ _ _ _ _ _ hm]
    exact hw.1
  · next hw =>
    refine Line.configured_conditioned hm h ?_
    by_cases ho : m = .off
    · exact .inl ho
    · exact .inr (not_not.mp fun e => hw ⟨ho, e⟩)

theorem Line.windowed_edged (hm : c.canBecome m) (h : c.edged) (hc : c.captureMode = capture) :
    (c.windowed pin now m level safe window capture rq interval).edged := by
  rw [Line.windowed_eq _ _ _ _ _ _ _ _ hm]
  intro hn
  obtain ⟨hr, hf⟩ := h (hc.trans hn)
  simp [hr, hf]

theorem Line.windowed_owner (hm : c.canBecome m) :
    (c.windowed pin now m level safe window capture rq interval).owner = c.owner := by
  rw [Line.windowed_eq _ _ _ _ _ _ _ _ hm]

end Cell

/-! ## The state that SET-LINE leaves -/

section Applied

variable (l : LineId) (m : LineMode) (level : Level) (safe : SafeMode) (window : BitVec 16) (capture : CaptureMode) (rq : QueueId)
  (interval : Bool) (s : State)

/-- SET-LINE gives its line the cell of `windowed`, lets the consumers of an immediate acceptance touch the line array, and then makes
the edge times absent where the capture settings have changed (R89 step 4). -/
theorem applySetLine_touched : ∃ s3 : State,
    (s.setLine l ((s.line l).windowed (s.pin l) s.time m level safe window capture rq interval)).Touched s3
      ∧ applySetLine l m level safe window capture rq interval s =
        if (s.line l).captureMode ≠ capture ∨ (s.line l).interval ≠ interval then s3.setLine l (s3.line l).forgetEdges else s3 := by
  refine ⟨_, ?_, rfl⟩
  change (s.setLine l ((s.line l).windowed (s.pin l) s.time m level safe window capture rq interval)).Touched
    (if m ≠ .off ∧ (s.line l).window ≠ window then
      applyWindow l (s.setLine l ((s.line l).configured (s.pin l) m level safe window capture rq interval))
    else s.setLine l ((s.line l).configured (s.pin l) m level safe window capture rq interval))
  unfold Line.windowed
  dsimp only
  split
  · have ht := applyWindow_touched l (s.setLine l ((s.line l).configured (s.pin l) m level safe window capture rq interval))
    rw [State.line_setLine_self, State.setLine_setLine] at ht
    exact ht
  · exact .refl _

/-- Without an immediate acceptance, or with one that nobody hears, SET-LINE moves its cell alone. -/
theorem applySetLine_eq
    (h : (s.line l).restarts m window → window = 0 →
      consumers l (s.setLine l ((s.line l).windowed (s.pin l) s.time m level safe window capture rq interval)) = [])
    (hm : (s.line l).canBecome m) :
    applySetLine l m level safe window capture rq interval s =
      s.setLine l ((s.line l).setTo (s.pin l) s.time m level safe window capture rq interval) := by
  have hrestarts := Line.restarts_of_configured (c := s.line l) (pin := s.pin l) (level := level) (safe := safe) (window := window)
    (capture := capture) (rq := rq) (interval := interval) hm
  have hwindow : (if m ≠ .off ∧ (s.line l).window ≠ window then
        applyWindow l (s.setLine l ((s.line l).configured (s.pin l) m level safe window capture rq interval))
      else s.setLine l ((s.line l).configured (s.pin l) m level safe window capture rq interval))
      = s.setLine l ((s.line l).windowed (s.pin l) s.time m level safe window capture rq interval) := by
    unfold Line.windowed at h ⊢
    dsimp only at h ⊢
    generalize (s.line l).configured (s.pin l) m level safe window capture rq interval = d at h hrestarts
    split
    · next hw =>
      rw [if_pos hw] at h
      refine (applyWindow_eq fun hr h0 => ?_).trans ?_
      · rw [State.line_setLine_self] at hr h0 ⊢
        rw [State.setLine_setLine]
        exact h (hrestarts hw hr).1 ((hrestarts hw hr).2.symm.trans h0)
      · rw [State.line_setLine_self, State.setLine_setLine]
        rfl
    · rfl
  unfold Line.setTo
  refine (congrArg (fun s3 => if (s.line l).captureMode ≠ capture ∨ (s.line l).interval ≠ interval then
    s3.setLine l (s3.line l).forgetEdges else s3) hwindow).trans ?_
  dsimp only
  split
  · rw [State.line_setLine_self, State.setLine_setLine]
  · rfl

end Applied

end Sys2Proof.Machine
end

section
/-!
SUPPORT. The operations that touch the line array as owners and captures do, or not at all: reports and messages, answers, reads and
writes that complete, the timed events of a track, and the commands of the admin engine but those that set, bind or release lines.
-/

namespace Sys2Proof.Machine

/-! ## Operations that touch no line cell -/

section NoLine

variable (s : State)

@[simp] theorem lines_sendMessage (v : VectorId) : (s.sendMessage v).lines = s.lines := by
  rw [sendMessage_eq]

@[simp] theorem lines_sendFor (q : QueueId) : (sendFor q s).lines = s.lines := by simp [sendFor_eq]

@[simp] theorem lines_countEntry (q : QueueId) : (countEntry q s).lines = s.lines := by
  unfold countEntry
  dsimp only
  split
  · rfl
  · split
    · exact lines_sendFor _ q
    · rfl

@[simp] theorem lines_fatalMessage : (fatalMessage s).lines = s.lines := lines_sendMessage _ _

@[simp] theorem lines_applyInterruptSettings (q : QueueId) (enable : Bool) (v : VectorId) (n : Nat) (d : BitVec 16) :
    (applyInterruptSettings q enable v n d s).lines = s.lines := by
  unfold applyInterruptSettings
  dsimp only
  split
  · rfl
  · rfl
  · split
    · rfl
    · exact lines_sendFor _ q
  · split
    · exact lines_sendFor _ q
    · split
      · rfl
      · split <;> rfl

@[simp] theorem lines_queueEvent (b : Byte) (body : ReportBody) : (queueEvent b body s).lines = s.lines := by
  simp [queueEvent]

@[simp] theorem lines_moveRelease (q : QueueId) (r : Nat) : (moveRelease q r s).lines = s.lines := by
  unfold moveRelease
  dsimp only
  split <;> rfl

@[simp] theorem lines_finishCommand (pos : Nat) : (finishCommand pos s).lines = s.lines := by
  unfold finishCommand
  dsimp only
  split <;> rfl

@[simp] theorem lines_handAdminDone (h : InHand) (status : Status) (result : Option AdminResult) :
    (handAdminDone h status result s).lines = s.lines := by
  unfold handAdminDone
  dsimp only
  split
  · rfl
  · split
    · exact lines_finishCommand _ _
    · rfl

@[simp] theorem lines_postWaiting : (postWaiting s).lines = s.lines := by
  unfold postWaiting
  split
  · rfl
  · split
    · dsimp only
      split
      · exact lines_finishCommand _ _
      all_goals rfl
    · rfl

@[simp] theorem lines_releaseSlots (q : QueueId) (index : BitVec 16) : (releaseSlots q index s).lines = s.lines := by
  unfold releaseSlots
  dsimp only
  split
  · split
    · rfl
    · split <;> simp
  · simp

@[simp] theorem lines_endIfDrained : s.endIfDrained.lines = s.lines := by
  rw [endIfDrained_eq]

@[simp] theorem lines_closeIfDrained (q : QueueId) : (closeIfDrained q s).lines = s.lines := by
  unfold closeIfDrained
  split
  · dsimp only
    split
    · split
      · exact lines_handAdminDone _ _ _ _
      · rfl
    all_goals rfl
  · rfl

@[simp] theorem lines_settleReply (h : InHand) (reply : Reply) : (settleReply h reply s).lines = s.lines := by
  cases reply with
  | answer status result => exact lines_handAdminDone s h status result
  | write addr data => rfl
  | drain q result => rfl

@[simp] theorem lines_writeRun (run : Bool) : (writeRun run s).lines = s.lines := by
  unfold writeRun
  split
  · split
    · split <;> rfl
    · rfl
  · split
    · rfl
    · split
      · rfl
      · split <;> rfl
  · split <;> rfl
  · rfl
  · rfl

@[simp] theorem lines_unmaskVector (v : VectorId) : (unmaskVector v s).lines = s.lines := by
  unfold unmaskVector
  dsimp only
  split
  · exact lines_sendMessage _ v
  · rfl

@[simp] theorem lines_abandonUncarried : (abandonUncarried s).lines = s.lines := by
  unfold abandonUncarried
  split <;> rfl

end NoLine

namespace State.Touched

variable {s0 s : State}

/-! ## Reads and writes that complete -/

theorem endIfDrained (h : s0.Touched s) : s0.Touched s.endIfDrained := h.aside (lines_endIfDrained s) (track_endIfDrained s)

theorem queueEvent (b : Byte) (body : ReportBody) (h : s0.Touched s) : s0.Touched (queueEvent b body s) :=
  h.aside (lines_queueEvent s b body) fun k => track_queueEvent s k b body

theorem closeIfDrained (q : QueueId) (h : s0.Touched s) : s0.Touched (closeIfDrained q s) :=
  h.aside (lines_closeIfDrained s q) fun k => track_closeIfDrained s k q

theorem enterFaulted (cause : FaultCause) (h : s0.Touched s) : s0.Touched (enterFaulted cause s) := by
  unfold Machine.enterFaulted
  split
  · dsimp only
    have h2 : s0.Touched ((List.finRange 8).foldl (fun s' t => Machine.forceSafe t .deviceFault s')
        { s with port := { s.port with dev := .faulted, faultCause := cause }, waiting := none }) :=
      foldl_keeps (P := s0.Touched) _ (fun _ t h => h.forceSafe t _) _ (h.aside rfl fun _ => rfl)
    generalize (List.finRange 8).foldl (fun s' t => Machine.forceSafe t .deviceFault s') _ = s2 at h2
    exact h2.aside (lines_fatalMessage _) fun k => (track_fatalMessage _ k).trans (State.setEngine_track s2 .idleWait k)
  · exact h

theorem completeStepRead (t : TrackId) (data : Vector StepRecord 8) (h : s0.Touched s) : s0.Touched (completeStepRead t data s) := by
  unfold Machine.completeStepRead
  split
  · exact h
  · have h1 : s0.Touched (s.dropRead (.track t)) := h.aside rfl fun _ => rfl
    generalize s.dropRead (.track t) = s1 at h1
    dsimp only
    split
    · exact h1.endIfDrained
    · split
      · exact h1
      · next r hr =>
        split
        · exact h1.setTrack t rfl rfl
        · have h2 : s0.Touched (s1.modTrack t fun c => c.join r data) := h1.setTrack t rfl rfl
          split
          · next he =>
            have C := h2.onTrack (Track.bound_iff.mpr (by rw [he]; decide))
            exact C.takeNext (C.idle h2)
          · exact h2

theorem failStepRead (t : TrackId) (h : s0.Touched s) : s0.Touched (failStepRead t s) := by
  unfold Machine.failStepRead
  split
  · exact h
  · have h1 : s0.Touched (s.dropRead (.track t)) := h.aside rfl fun _ => rfl
    generalize s.dropRead (.track t) = s1 at h1
    dsimp only
    split
    · exact h1.endIfDrained
    · split
      · exact h1
      · have h2 : s0.Touched (s1.modTrack t fun c => { c with read := none }) := h1.setTrack t rfl rfl
        split
        · exact h2
        · exact h2.forceSafe t _

theorem failCommandRead (h : s0.Touched s) : s0.Touched (failCommandRead s) := by
  unfold Machine.failCommandRead
  split
  · exact h
  · have h1 : s0.Touched (s.dropRead .admin) := h.aside rfl fun _ => rfl
    generalize s.dropRead .admin = s1 at h1
    dsimp only
    split
    · exact h1.endIfDrained
    · split
      · exact h1.enterFaulted _
      all_goals exact h1

theorem timeoutRead (who : Requester) (h : s0.Touched s) : s0.Touched (timeoutRead who s) := by
  unfold Machine.timeoutRead
  split
  · exact h
  · split
    · cases who with
      | track t => exact h.failStepRead t
      | admin => exact h.failCommandRead
    · exact h

theorem writeRetireWord (t : TrackId) (h : s0.Touched s) : s0.Touched (writeRetireWord t s) :=
  (h.setTrack t (c := { s.track t with retireWrite := some ⟨(s.track t).retire, false⟩ }) rfl rfl).aside rfl fun _ => rfl

theorem completeRetireWord (t : TrackId) (error : Bool) (h : s0.Touched s) : s0.Touched (completeRetireWord t error s) := by
  unfold Machine.completeRetireWord
  split
  · exact h
  · have h1 : s0.Touched (s.dropWrite (WritePurpose.isRetireWordOf t)) := h.aside rfl fun _ => rfl
    generalize s.dropWrite (WritePurpose.isRetireWordOf t) = s1 at h1
    have h2 : s0.Touched (s1.modTrack t fun c => { c with retireWrite := none }) := h1.setTrack t rfl rfl
    dsimp only
    split
    · exact h1.endIfDrained
    · split
      · exact h1
      · split
        · unfold afterEarlierWrite
          dsimp only
          split
          · exact h2.writeRetireWord t
          · exact h2
        · split
          · exact h2.forceSafe t _
          · split
            · exact h2.writeRetireWord t
            · exact h2

theorem completeEntry (q : QueueId) (h : s0.Touched s) : s0.Touched (completeEntry q s) := by
  unfold Machine.completeEntry
  split
  · exact h
  · have h1 : s0.Touched (s.dropWrite (WritePurpose.isEntryOf q)) := h.aside rfl fun _ => rfl
    generalize s.dropWrite (WritePurpose.isEntryOf q) = s1 at h1
    have h2 : s0.Touched (lowerInFlight q s1) := h1.aside rfl fun _ => rfl
    dsimp only
    split
    · exact h1.endIfDrained
    · generalize lowerInFlight q s1 = s2 at h2
      refine State.Touched.closeIfDrained q ?_
      split
      · exact h2.aside (lines_countEntry s2 q) fun k => track_countEntry s2 k q
      · exact h2

theorem failEntry (q : QueueId) (h : s0.Touched s) : s0.Touched (failEntry q s) := by
  unfold Machine.failEntry
  split
  · exact h
  · have h1 : s0.Touched (s.dropWrite (WritePurpose.isEntryOf q)) := h.aside rfl fun _ => rfl
    generalize s.dropWrite (WritePurpose.isEntryOf q) = s1 at h1
    have h2 : s0.Touched (lowerInFlight q s1) := h1.aside rfl fun _ => rfl
    dsimp only
    split
    · exact h1.endIfDrained
    · generalize lowerInFlight q s1 = s2 at h2
      split
      · exact h2.closeIfDrained q
      · split
        · exact h2.enterFaulted _
        · split
          · have h3 : s0.Touched (s2.setRq q { s2.rq q with state := .failed }) := h2.aside rfl fun _ => rfl
            exact (h3.queueEvent _ _).closeIfDrained q
          · exact h2.closeIfDrained q

theorem completeBuffer (error : Bool) (h : s0.Touched s) : s0.Touched (completeBuffer error s) := by
  unfold Machine.completeBuffer
  split
  · exact h
  · have h1 : s0.Touched (s.dropWrite WritePurpose.isBuffer) := h.aside rfl fun _ => rfl
    generalize s.dropWrite WritePurpose.isBuffer = s1 at h1
    dsimp only
    split
    · exact h1.endIfDrained
    · split
      · exact h1.aside (lines_handAdminDone s1 _ _ _) fun k => track_handAdminDone s1 k _ _ _
      all_goals exact h1

/-! ## The timed events of a track -/

theorem reachStart (t : TrackId) (h : s0.Touched s) : s0.Touched (reachStart t s) := by
  unfold Machine.reachStart
  split
  · next hs _ =>
    split
    · exact (h.onTrack (Track.bound_iff.mpr (by rw [hs]; decide))).startTrack _ h
    · exact h
  · exact h

theorem expireDue (t : TrackId) (h : s0.Touched s) : s0.Touched (expireDue t s) := by
  unfold Machine.expireDue
  split
  · next hs _ =>
    split
    · exact (h.onTrack (Track.bound_iff.mpr (by rw [hs]; decide))).dueExpired _ h
    · exact h
  · exact h

theorem expireTimeout (t : TrackId) (h : s0.Touched s) : s0.Touched (expireTimeout t s) := by
  unfold Machine.expireTimeout
  split
  · next hs _ =>
    split
    · exact (h.onTrack (Track.bound_iff.mpr (by rw [hs]; decide))).timeoutExpired _ h
    · exact h
  · exact h

theorem expireHold (t : TrackId) (h : s0.Touched s) : s0.Touched (expireHold t s) := by
  unfold Machine.expireHold
  split
  · next hs => exact (h.onTrack (Track.bound_iff.mpr (by rw [hs.1]; decide))).enterSafe _ _ h
  · exact h

/-! ## The host and the fetch unit -/

theorem issueGrant (h : s0.Touched s) : s0.Touched (issueGrant s) := by
  unfold Machine.issueGrant
  split
  · exact h
  · split
    · next t _ =>
      exact (h.setTrack t (c := { s.track t with read := some ⟨(s.track t).fetch, (s.track t).readLength, false⟩ }) rfl rfl).aside
        rfl fun _ => rfl
    · exact h.aside rfl fun _ => rfl
    · exact h

theorem writePost (selector : BitVec 4) (index : BitVec 16) (h : s0.Touched s) : s0.Touched (writePost selector index s) := by
  unfold Machine.writePost
  dsimp only
  split
  · exact h
  · split
    · split
      · exact h.aside rfl fun _ => rfl
      · exact h.queueEvent _ _
    · split
      · split
        · exact h.setTrack _ rfl rfl
        · exact h.queueEvent _ _
      · exact h.queueEvent _ _

theorem writeRlse (queue : BitVec 4) (index : BitVec 16) (h : s0.Touched s) : s0.Touched (writeRlse queue index s) := by
  unfold Machine.writeRlse
  split
  · exact h
  · split
    · exact h.aside (lines_releaseSlots s _ _) fun k => track_releaseSlots s k _ _
    · exact h.queueEvent _ _

/-! ## The commands of the tracks, the report queues and the trip units -/

/-- A change of one track's context that keeps it, and it bound. -/
theorem changes (t : TrackId) {f : Track → Track} (h : s0.Touched s) (hl : (f (s.track t)).lanes = (s.track t).lanes)
    (hs : (s.track t).state ≠ .unbound) (hf : (f (s.track t)).state ≠ .unbound) : s0.Touched (s.modTrack t f) :=
  h.setTrack t hl ((Track.bound_iff.mpr hf).trans (Track.bound_iff.mpr hs).symm)

/-- STOPPED tracks that become ARMED. -/
theorem arm (start : Time) (ts : List TrackId) (hn : ts.Nodup) (h : s0.Touched s) (hs : ∀ t ∈ ts, (s.track t).state = .stopped) :
    s0.Touched (ts.foldl (fun s' t => s'.modTrack t fun c => c.arm start) s) := by
  induction ts generalizing s with
  | nil => exact h
  | cons t ts ih =>
    obtain ⟨ht, hn⟩ := List.nodup_cons.mp hn
    refine ih hn (h.changes t rfl (by rw [hs t List.mem_cons_self]; decide) nofun) fun k hk => ?_
    have hne : k ≠ t := fun e => ht (e ▸ hk)
    rw [State.track_modTrack_ne _ _ hne]
    exact hs k (List.mem_cons_of_mem t hk)

/-- Bound tracks that start one after another. -/
theorem startAll (start : Time) (ts : List TrackId) (h : s0.Touched s) (hb : ∀ t ∈ ts, (s0.track t).bound = true) :
    s0.Touched (ts.foldl (fun s' t => startTrack t start s') s) := by
  induction ts generalizing s with
  | nil => exact h
  | cons t ts ih =>
    have ht : (s.track t).bound = true := (h.bound t).trans (hb t List.mem_cons_self)
    exact ih ((h.onTrack ht).startTrack start h) fun k hk => hb k (List.mem_cons_of_mem t hk)

theorem startTracksEffect (mask mode : Byte) (start : Time) (s : State) : s.Touched (startTracksEffect mask mode start s).2 := by
  unfold Machine.startTracksEffect
  split
  · exact .refl s
  · next isAt _ =>
    dsimp only
    generalize (if isAt = true then start else s.time) = moment
    split
    · exact .refl s
    · split
      · exact .refl s
      · split
        · exact .refl s
        · split
          · exact .refl s
          · next hstart hheld _ =>
            simp only [List.any_eq_true, Bool.not_eq_true', not_exists, not_and, Bool.not_eq_true, Bool.not_eq_false] at hstart hheld
            have hstopped : ∀ t ∈ maskTracks mask, (s.track t).state = .stopped := fun t ht =>
              stopped_of_startable (hstart t ht) (hheld t ht)
            have harm := (State.Touched.refl s).arm moment (maskTracks mask) ((List.nodup_finRange 8).filter _) hstopped
            generalize (maskTracks mask).foldl (fun s' t => s'.modTrack t fun c => c.arm moment) s = s1 at harm
            split
            · refine State.Touched.startAll moment _ (harm.afterOrder _) fun t ht => Track.bound_iff.mpr ?_
              rw [hstopped t ((mem_freeOrder s1 _).mp ht)]
              decide
            · exact harm

theorem stopTrackEffect (track timing lines : Byte) (s : State) : s.Touched (stopTrackEffect track timing lines s).2 := by
  unfold Machine.stopTrackEffect
  split
  · exact .refl s
  · next t _ =>
    dsimp only
    split
    · exact .refl s
    · next hs =>
      split
      · split
        · exact (State.Touched.refl s).setTrack t rfl rfl
        · exact ((State.Touched.refl s).onTrack (Track.bound_iff.mpr fun e => hs (.inl e))).stopEffect _ (.refl s)
      · exact .refl s

theorem pauseTrackEffect (track : Byte) (s : State) : s.Touched (pauseTrackEffect track s).2 := by
  unfold Machine.pauseTrackEffect
  split
  · exact .refl s
  · next t _ =>
    split
    · exact .refl s
    · next p hp =>
      exact (State.Touched.refl s).changes t (f := fun c => { c.idleTimers with state := .paused, pausedFrom := some p }) rfl
        (fun e => by rw [e] at hp; cases hp) nofun

theorem resumeTrackEffect (track action choice : Byte) (s : State) : s.Touched (resumeTrackEffect track action choice s).2 := by
  unfold Machine.resumeTrackEffect
  split
  · exact .refl s
  · next t _ =>
    dsimp only
    split
    · exact .refl s
    · next hs =>
      have hb : (s.track t).bound = true := Track.bound_iff.mpr fun e => hs (by rw [e]; decide)
      have C := (State.Touched.refl s).onTrack hb
      split
      · exact C.flushEffect (.refl s)
      · split
        · exact .refl s
        · split
          · exact .refl s
          · exact C.continueTrack _ (.refl s)
      · exact .refl s

theorem createRqEffect (p : CreateRqParams) (s : State) : s.Touched (createRqEffect p s).2 := by
  unfold Machine.createRqEffect
  split
  · exact .refl s
  · split
    · exact .refl s
    · split
      · split
        · exact (State.Touched.refl s).aside rfl fun _ => rfl
        · exact .refl s
      · exact .refl s

theorem deleteRqEffect (queue : Byte) (s : State) : s.Touched (deleteRqEffect queue s).2 := by
  unfold Machine.deleteRqEffect
  split
  · exact .refl s
  · dsimp only
    split
    · exact .refl s
    · split
      · exact .refl s
      · split
        · exact (State.Touched.refl s).aside rfl fun _ => rfl
        · exact (State.Touched.refl s).aside rfl fun _ => rfl

theorem setRqInterruptEffect (p : RqInterruptParams) (s : State) : s.Touched (setRqInterruptEffect p s).2 := by
  unfold Machine.setRqInterruptEffect
  split
  · exact .refl s
  · split
    · exact .refl s
    · split
      · split
        · exact .refl s
        · exact (State.Touched.refl s).aside (lines_applyInterruptSettings s _ _ _ _ _)
            fun k => track_applyInterruptSettings s k _ _ _ _ _
      · exact .refl s

theorem setTripEffect (p : SetTripParams) (s : State) : s.Touched (setTripEffect p s).2 := by
  unfold Machine.setTripEffect
  split
  · exact .refl s
  · next u _ =>
    split
    · split
      · exact .refl s
      · dsimp only
        generalize hs1 : s.setTrip u _ = s1
        have h1 : s.Touched s1 := hs1 ▸ (State.Touched.refl s).aside rfl fun _ => rfl
        split
        · exact h1.fire u .level none 0
        · exact h1
    · exact .refl s

theorem clearTripEffect (unit : Byte) (s : State) : s.Touched (clearTripEffect unit s).2 := by
  unfold Machine.clearTripEffect
  split
  · exact .refl s
  · split
    · exact .refl s
    · split
      · exact .refl s
      · exact (State.Touched.refl s).aside rfl fun _ => rfl

theorem fireTripEffect (id : BitVec 16) (unit : Byte) (s : State) : s.Touched (fireTripEffect id unit s).2 := by
  unfold Machine.fireTripEffect
  split
  · exact .refl s
  · split
    · exact .refl s
    · exact (State.Touched.refl s).fire _ _ _ _

theorem trackStatusEffect (track : Byte) (buffer : Addr) (s : State) : s.Touched (trackStatusEffect track buffer s).2 := by
  unfold Machine.trackStatusEffect
  split
  · exact .refl s
  · split <;> exact .refl s

theorem identifyEffect (buffer : Addr) (s : State) : s.Touched (identifyEffect buffer s).2 := by
  unfold Machine.identifyEffect
  split <;> exact .refl s

end State.Touched

end Sys2Proof.Machine
end

section
/-!
CERTIFICATE. Every command, and every tick, keeps every line cell sound and every line in TRACK mode exactly the lane of one bound track
(R82, R83, R84, R98, R107).
-/

namespace Sys2Proof.Machine

/-! ## The wiring of lines to tracks -/

/-- Every line is sound, and its owner is the bound track whose lane it is. -/
structure State.Wired (s : State) : Prop where
  cell : s.linesSound
  short : ∀ t, (s.track t).bound → (s.track t).lanes.length ≤ 16
  lane : ∀ l o, (s.line l).owner = some o ↔ ((s.track o.track).bound ∧ (s.track o.track).lanes[o.lane.val]? = some l)

/-- That an owner stands exactly in TRACK mode is part of a sound cell. -/
theorem wired_iff {s : State} : s.Wired ↔ s.linesSound ∧ s.lanesSound := by
  constructor
  · intro h
    refine ⟨h.cell, fun l => ?_, h.short, h.lane⟩
    obtain ⟨⟨-, -, -, howner⟩, -⟩ := Line.sound_iff.mp (h.cell l)
    exact howner
  · rintro ⟨hcell, -, hshort, hlane⟩
    exact ⟨hcell, hshort, hlane⟩

/-! ## The cells that the claims leave -/

/-- A line that becomes a lane is sound: one that was OFF has started its conditioner (R62, R89). -/
theorem Line.bind_sound {c : Line} (pin : Level) (o : LaneRef) (b : Bool) (h : c.sound) : (c.bind pin o (levelOf b)).sound := by
  obtain ⟨-, hconditioned, hedged⟩ := Line.sound_iff.mp h
  rw [Line.bind_eq]
  refine Line.sound_iff.mpr ⟨⟨nofun, nofun, nofun, by simp⟩, ?_, fun hn => ?_⟩
  · by_cases hm : c.mode = .off
    · exact .inl (by simp [Line.settled, hm])
    · rcases hconditioned with ⟨hp, ht, hr⟩ | ⟨-, hr, hw, start, hp, ht⟩
      · exact .inl (by simp [Line.settled, hm, hp, ht, hr])
      · exact .inr (by simpa [Line.changing, hm, hr, hp, ht] using hw)
  · obtain ⟨hr, hf⟩ := hedged hn
    simp [hr, hf]

theorem Line.toOff_sound {c : Line} (h : c.sound) : c.toOff.sound := by
  obtain ⟨-, -, hedged⟩ := Line.sound_iff.mp h
  exact Line.sound_iff.mpr ⟨⟨fun _ => rfl, nofun, nofun, by simp [Line.toOff]⟩, .inl ⟨rfl, rfl, absurd rfl⟩, hedged⟩

theorem Line.powerOn_sound : Line.powerOn.sound :=
  Line.sound_iff.mpr ⟨⟨fun _ => rfl, nofun, nofun, by simp [Line.powerOn]⟩, .inl ⟨rfl, rfl, fun _ => rfl⟩, fun _ => ⟨rfl, rfl⟩⟩

/-- After a reset a line has no owner and its conditioner stands at the pin (R94 to R96). -/
theorem Line.afterReset_sound (c : Line) (pin : Level) : (c.afterReset pin).sound ∧ (c.afterReset pin).owner = none := by
  have parked : ∀ d : Drive, ({ Line.powerOn with mode := .parked, drive := d, raw := pin, accepted := pin } : Line).sound := fun d =>
    Line.sound_iff.mpr ⟨⟨nofun, nofun, nofun, by simp [Line.powerOn]⟩, .inl ⟨rfl, rfl, fun _ => rfl⟩, fun _ => ⟨rfl, rfl⟩⟩
  unfold Line.afterReset
  split
  · exact ⟨Line.powerOn_sound, rfl⟩
  · exact ⟨Line.sound_iff.mpr ⟨⟨nofun, fun _ => rfl, nofun, by simp [Line.powerOn]⟩, .inl ⟨rfl, rfl, fun _ => rfl⟩, fun _ => ⟨rfl, rfl⟩⟩,
      rfl⟩
  · exact ⟨parked _, rfl⟩
  · exact ⟨parked _, rfl⟩
  · exact ⟨parked _, rfl⟩

/-- A STATIC line that takes another static level with its drive is sound (R91). -/
theorem Line.staticLevel_sound {c : Line} (level : Level) (h : c.sound) (hm : c.mode = .static) :
    ({ c with staticLevel := level, drive := driveOf level } : Line).sound := by
  obtain ⟨⟨-, -, -, howner⟩, hconditioned, hedged⟩ := Line.sound_iff.mp h
  refine Line.sound_iff.mpr ⟨⟨fun e => ?_, fun e => ?_, fun _ => rfl, howner⟩, hconditioned, hedged⟩
  · exact absurd (hm.symm.trans e) (by decide)
  · exact absurd (hm.symm.trans e) (by decide)

/-! ## The cells that a raw change and a window expiry leave -/

/-- Another raw level and accepted level, and another pending change, are no matter of the drive, the owner and the edge times. -/
theorem Line.sound_of_conditioned {c d : Line} (h : c.sound) (hd : d.conditioned)
    (e : d = { c with raw := d.raw, accepted := d.accepted, pendingStart := d.pendingStart, windowTimer := d.windowTimer,
                      glitch := d.glitch }) : d.sound := by
  obtain ⟨hdriven, -, hedged⟩ := Line.sound_iff.mp h
  refine Line.sound_iff.mpr ⟨?_, hd, ?_⟩ <;> rw [e]
  · exact hdriven
  · exact hedged

theorem Line.accepted_sound {c : Line} (raw : Level) (h : c.sound) :
    ({ c.discardPending with raw := raw, accepted := raw } : Line).sound :=
  Line.sound_of_conditioned h (.inl ⟨rfl, rfl, fun _ => rfl⟩) rfl

/-- A raw change on a SETTLED line with a window starts a change towards it (R101). -/
theorem Line.startPending_sound {c : Line} {raw : Level} (now : Time) (h : c.sound) (hm : c.mode ≠ .off) (hr : c.raw ≠ raw)
    (hw : c.window ≠ 0) (hp : c.pendingStart = none) : (({ c with raw := raw } : Line).startPending now).sound := by
  obtain ⟨-, hconditioned, -⟩ := Line.sound_iff.mp h
  rcases hconditioned with ⟨-, -, ha⟩ | ⟨-, -, -, start, hs, -⟩
  · exact Line.sound_of_conditioned h (.inr ⟨hm, ha hm ▸ hr.symm, hw, now, rfl, rfl⟩) rfl
  · exact absurd (hp.symm.trans hs) nofun

theorem Level.eq_of_ne {a b c : Level} (h : a ≠ b) (h' : a ≠ c) : b = c := by
  cases a <;> cases b <;> cases c <;> simp_all

/-- A raw change on a PENDING line returns it to its accepted level (R101). -/
theorem Line.glitched_sound {c : Line} {raw : Level} (h : c.sound) (hr : c.raw ≠ raw) (hp : c.pendingStart ≠ none) :
    (({ c with raw := raw } : Line).glitched).sound := by
  obtain ⟨-, hconditioned, -⟩ := Line.sound_iff.mp h
  rcases hconditioned with ⟨hs, -⟩ | ⟨-, ha, -⟩
  · exact absurd hs hp
  · exact Line.sound_of_conditioned h (.inl ⟨rfl, rfl, fun _ => Level.eq_of_ne hr ha⟩) rfl

/-- The mode that passes the checks of SET-LINE is one that the line can take: none but OFF, INPUT and STATIC can be given, and no mode
to a line that is a lane (R87, R88). -/
theorem canBecome_resulting {b : Byte} {choice : ModeChoice} {c : Line} (h : setLineMode? b = some choice)
    (hb : ¬(c.mode = .track ∧ choice ≠ .keep)) : c.canBecome (choice.resulting c.mode) := by
  cases choice with
  | keep => exact fun _ => rfl
  | give m =>
    have hm : m ≠ .track ∧ m ≠ .parked := by
      unfold setLineMode? at h
      split at h <;> cases h <;> decide
    rintro (e | e | e)
    · exact absurd e hm.1
    · exact absurd e hm.2
    · exact absurd ⟨e, nofun⟩ hb

namespace State.Wired

variable {s s' : State}

/-! ## What keeps the wiring -/

/-- Sound cells with the owners as they were keep the wiring, where every track keeps its lanes and stays bound or unbound. -/
theorem rewired (h : s.Wired) (hc : ∀ l, (s'.line l).sound) (ho : ∀ l, (s'.line l).owner = (s.line l).owner)
    (hl : ∀ k, (s'.track k).lanes = (s.track k).lanes) (hb : ∀ k, (s'.track k).bound = (s.track k).bound) : s'.Wired where
  cell := hc
  short t := by rw [hb, hl]; exact h.short t
  lane l o := by rw [ho, hb, hl]; exact h.lane l o

/-- Owners and captures, and what leaves the line array alone, keep the wiring. -/
theorem touched (h : s.Wired) (ht : s.Touched s') : s'.Wired :=
  h.rewired (fun l => (ht.line l).sound (h.cell l)) (fun l => (ht.line l).owner) ht.lanes ht.bound

theorem setLine (l : LineId) {c : Line} (h : s.Wired) (hc : c.sound) (ho : c.owner = (s.line l).owner) : (s.setLine l c).Wired := by
  refine h.rewired (fun j => ?_) (fun j => ?_) (fun _ => rfl) fun _ => rfl <;> rw [State.line_setLine] <;> split
  · exact hc
  · exact h.cell j
  · next e => rw [e, ho]
  · rfl

theorem mapLines {f : LineId → Line → Line} (h : s.Wired) (hc : ∀ l, (f l (s.line l)).sound)
    (ho : ∀ l, (f l (s.line l)).owner = (s.line l).owner) : (s.mapLines f).Wired := by
  refine h.rewired (fun l => ?_) (fun l => ?_) (fun k => ?_) fun k => ?_
  · rw [State.line_mapLines]; exact hc l
  · rw [State.line_mapLines]; exact ho l
  · rw [State.mapLines_track]
  · rw [State.mapLines_track]

theorem aside (h : s.Wired) (hl : s'.lines = s.lines) (ht : ∀ k, s'.track k = s.track k) : s'.Wired :=
  h.touched ((State.Touched.refl s).aside hl ht)

/-- With every track UNBOUND and no line owned there is nothing to match. -/
theorem of_unbound (hc : ∀ l, (s.line l).sound) (ho : ∀ l, (s.line l).owner = none) (hb : ∀ k, (s.track k).bound = false) :
    s.Wired where
  cell := hc
  short t e := by rw [hb] at e; cases e
  lane l o := by simp [ho, hb]

/-! ## Samples and windows -/

theorem samplePin (l : LineId) (level : Level) (h : s.Wired) : (samplePin l level s).Wired := by
  unfold Machine.samplePin
  dsimp only
  split
  · exact h.aside rfl fun _ => rfl
  · next hc =>
    obtain ⟨hm, hr, -⟩ : (s.line l).mode ≠ .off ∧ (s.line l).raw ≠ level ∧ _ := by simpa only [not_or] using hc
    have h1 : (markChanged l { s with pins := s.pins.set l level }).Wired := h.aside rfl fun _ => rfl
    have hline : (markChanged l { s with pins := s.pins.set l level }).line l = s.line l := rfl
    rw [← hline] at hm hr
    generalize markChanged l { s with pins := s.pins.set l level } = s1 at h1 hm hr
    unfold rawChanged
    dsimp only
    split
    · have ha := acceptance_touched l level s1.time 0 (s1.setLine l ({ s1.line l with raw := level } : Line).discardPending)
      rw [State.line_setLine_self, State.setLine_setLine] at ha
      exact (h1.setLine l (Line.accepted_sound level (h1.cell l)) rfl).touched ha
    · next hw =>
      split
      · next hp => exact h1.setLine l (Line.startPending_sound _ (h1.cell l) hm hr hw hp) rfl
      · next hp => exact h1.setLine l (Line.glitched_sound (h1.cell l) hr hp) rfl

theorem expireWindow (l : LineId) (h : s.Wired) : (expireWindow l s).Wired := by
  unfold Machine.expireWindow
  split
  · next start _ =>
    split
    · have ha := acceptance_touched l (s.line l).raw start (s.line l).window (s.setLine l (s.line l).discardPending)
      rw [State.line_setLine_self, State.setLine_setLine] at ha
      exact (h.setLine l (Line.accepted_sound (s.line l).raw (h.cell l)) rfl).touched ha
    · exact h
  · exact h

/-! ## The commands that set, bind and release lines -/

/-- SET-LINE: the cell of `windowed` is driven and conditioned, and where it lacks the capture settings of its edge times these become
absent (R89 step 4). -/
theorem applySetLine (l : LineId) {m : LineMode} (level : Level) (safe : SafeMode) (window : BitVec 16) (capture : CaptureMode)
    (rq : QueueId) (interval : Bool) (h : s.Wired) (hm : (s.line l).canBecome m) :
    (applySetLine l m level safe window capture rq interval s).Wired := by
  obtain ⟨s3, ht, e⟩ := applySetLine_touched l m level safe window capture rq interval s
  obtain ⟨hdriven, hconditioned, hedged⟩ := Line.sound_iff.mp (h.cell l)
  have hl := ht.line l
  rw [State.line_setLine_self] at hl
  have hd := hl.driven (Line.windowed_driven hm hdriven)
  have hc := hl.conditioned (Line.windowed_conditioned hm hconditioned)
  have ho := hl.owner.trans (Line.windowed_owner hm)
  have hother : ∀ j, j ≠ l → (s.line j).Touched (s3.line j) := fun j hj => by
    have hj' := ht.line j
    rwa [State.line_setLine_ne _ _ hj] at hj'
  rw [e]
  split
  · refine h.rewired (fun j => ?_) (fun j => ?_) ht.lanes ht.bound <;> rw [State.line_setLine] <;> split
    · exact Line.sound_iff.mpr ⟨hd, hc, fun _ => ⟨rfl, rfl⟩⟩
    · next hj => exact (hother j hj).sound (h.cell j)
    · next hj => rw [hj]; exact ho
    · next hj => exact (hother j hj).owner
  · next hn =>
    have hcap : (s.line l).captureMode = capture := not_not.mp (not_or.mp hn).1
    refine h.rewired (fun j => ?_) (fun j => ?_) ht.lanes ht.bound <;> by_cases hj : j = l
    · rw [hj]; exact Line.sound_iff.mpr ⟨hd, hc, hl.edged (Line.windowed_edged hm hedged hcap)⟩
    · exact (hother j hj).sound (h.cell j)
    · rw [hj]; exact ho
    · exact (hother j hj).owner

theorem setLineEffect (p : SetLineParams) (h : s.Wired) : (setLineEffect p s).2.Wired := by
  unfold Machine.setLineEffect
  split
  · exact h
  · next l _ =>
    split
    · next choice safe capture rq hmode _ _ _ =>
      dsimp only
      split
      · exact h
      · split
        · exact h
        · next hbusy =>
          split
          · exact h
          · exact h.applySetLine l _ _ _ _ _ _ (canBecome_resulting hmode hbusy)
    · exact h

theorem setStaticEffect (mask levels : BitVec 48) (h : s.Wired) : (setStaticEffect mask levels s).2.Wired := by
  unfold Machine.setStaticEffect
  split
  · exact h
  · next hs =>
    have hstatic : ∀ l : LineId, mask.getLsbD l.val = true → (s.line l).mode = .static := by simpa using hs
    refine h.mapLines (fun l => ?_) fun l => ?_ <;> split
    · next hl => exact Line.staticLevel_sound _ (h.cell l) (hstatic l hl)
    · exact h.cell l
    · rfl
    · rfl

theorem snapshotEffect (buffer : Addr) (clear : Bool) (h : s.Wired) : (snapshotEffect buffer clear s).2.Wired := by
  unfold Machine.snapshotEffect
  split
  · exact h
  · dsimp only
    split
    · exact h.mapLines (fun l => h.cell l) fun _ => rfl
    · exact h

/-- BIND-TRACK: the listed lines, none of them owned, become the lanes of a track that had none (R60 to R62). -/
theorem boundState {k : TrackId} {p : BindParams} {lanes : List LineId} (rq : QueueId) (policy : LatePolicy) (h : s.Wired)
    (hk : (s.track k).bound = false) (hn : lanes.Nodup) (hlen : lanes.length ≤ 16) (hfree : ∀ l ∈ lanes, (s.line l).mode ≠ .track) :
    (boundState k p lanes rq policy s).Wired := by
  have hlane := fun (i : Fin 16) (l : LineId) => line_boundState_lane k p rq policy s (i := i) (l := l) hn
  have hkept := fun (l : LineId) => line_boundState_free k p (lanes := lanes) rq policy s (l := l)
  have hself := track_boundState k p lanes rq policy s
  have hother := fun (j : TrackId) => boundState_track_ne k p lanes rq policy s (j := j)
  generalize Machine.boundState k p lanes rq policy s = s' at hlane hkept hself hother
  have place : ∀ l ∈ lanes, ∃ i : Fin 16, lanes[i.val]? = some l := fun l hl => by
    obtain ⟨i, hi, e⟩ := List.mem_iff_getElem.mp hl
    exact ⟨⟨i, hi.trans_le hlen⟩, by simp [hi, e]⟩
  refine { cell := fun l => ?_, short := fun t hb => ?_, lane := fun l o => ?_ }
  · by_cases hl : l ∈ lanes
    · obtain ⟨i, hi⟩ := place l hl
      rw [hlane i l hi]
      exact Line.bind_sound _ _ _ (h.cell l)
    · rw [hkept l hl]
      exact h.cell l
  · by_cases ht : t = k
    · rw [ht, hself]
      exact hlen
    · rw [hother t ht] at hb ⊢
      exact h.short t hb
  · by_cases hl : l ∈ lanes
    · obtain ⟨i, hi⟩ := place l hl
      have howner := fun j (hj : lanes[j.val]? = some l) => congrArg Line.owner (hlane j l hj)
      rw [howner i hi]
      constructor
      · rintro e
        obtain rfl := Option.some.inj e
        rw [hself]
        exact ⟨rfl, hi⟩
      · rintro ⟨hb, ho⟩
        by_cases hok : o.track = k
        · rw [hok, hself] at ho
          exact (howner i hi).symm.trans ((howner o.lane ho).trans (by rw [← hok]; rfl))
        · rw [hother _ hok] at hb ho
          have hnone := (Line.sound_iff.mp (h.cell l)).1.owner_none (hfree l hl)
          exact absurd (hnone.symm.trans ((h.lane l o).mpr ⟨hb, ho⟩)) nofun
    · rw [hkept l hl, h.lane l o]
      by_cases hok : o.track = k
      · rw [hok, hself, hk]
        exact ⟨fun e => absurd e.1 (by decide), fun e => absurd (List.mem_of_getElem? e.2) hl⟩
      · rw [hother _ hok]

theorem bindTrackEffect (p : BindParams) (h : s.Wired) : (bindTrackEffect p s).2.Wired := by
  unfold Machine.bindTrackEffect
  split
  · exact h
  · next k _ =>
    split
    · exact h
    · next hk =>
      split
      · exact h
      · next lanes rq policy hops =>
        split
        · exact h
        · split
          · exact h
          · next hfree =>
            obtain ⟨-, hcount, hlanes, hn, -⟩ := bindOperands_eq_some.mp hops
            have hlen : lanes.length ≤ 16 := by
              have hlength := congrArg List.length hlanes
              simp only [List.length_map, List.length_take] at hlength
              omega
            exact h.boundState rq policy (by simpa [Track.bound] using hk) hn hlen (by simpa using hfree)

/-- UNBIND-TRACK: the lanes of the track, and no other line, are released as it becomes UNBOUND (R63). -/
theorem unboundState (k : TrackId) (h : s.Wired) : (unboundState k s).Wired where
  cell l := by
    rw [line_unboundState]
    split
    · exact Line.toOff_sound (h.cell l)
    · exact h.cell l
  short t hb := by
    by_cases ht : t = k
    · rw [ht, track_unboundState] at hb
      exact absurd hb Bool.false_ne_true
    · rw [unboundState_track_ne ht] at hb ⊢
      exact h.short t hb
  lane l o := by
    rw [line_unboundState]
    by_cases hok : o.track = k
    · rw [hok, track_unboundState]
      refine ⟨fun e => ?_, fun e => absurd e.1 Bool.false_ne_true⟩
      split at e
      · cases e
      · next hown => simp [Line.ownedBy, e, hok] at hown
    · rw [unboundState_track_ne hok, ← h.lane l o]
      split
      · next hown =>
        refine ⟨nofun, fun e => ?_⟩
        simp [Line.ownedBy, e, hok] at hown
      · exact Iff.rfl

theorem unbindTrackEffect (track : Byte) (h : s.Wired) : (unbindTrackEffect track s).2.Wired := by
  unfold Machine.unbindTrackEffect
  split
  · exact h
  · next k _ =>
    split
    · exact h.unboundState k
    · exact h

/-- The effect of every command keeps the wiring (R170). -/
theorem commandEffect (id : BitVec 16) (c : Command) (h : s.Wired) : (commandEffect id c s).2.Wired := by
  cases c with
  | identify buffer => exact h.touched (.identifyEffect buffer s)
  | setLine p => exact h.setLineEffect p
  | setStatic mask levels => exact h.setStaticEffect mask levels
  | snapshot buffer clear => exact h.snapshotEffect buffer clear
  | bindTrack p => exact h.bindTrackEffect p
  | unbindTrack track => exact h.unbindTrackEffect track
  | startTracks mask mode start => exact h.touched (.startTracksEffect mask mode start s)
  | stopTrack track timing lines => exact h.touched (.stopTrackEffect track timing lines s)
  | pauseTrack track => exact h.touched (.pauseTrackEffect track s)
  | resumeTrack track action choice => exact h.touched (.resumeTrackEffect track action choice s)
  | trackStatus track buffer => exact h.touched (.trackStatusEffect track buffer s)
  | createRq p => exact h.touched (.createRqEffect p s)
  | deleteRq queue => exact h.touched (.deleteRqEffect queue s)
  | setRqInterrupt p => exact h.touched (.setRqInterruptEffect p s)
  | setTrip p => exact h.touched (.setTripEffect p s)
  | clearTrip unit => exact h.touched (.clearTripEffect unit s)
  | fireTrip unit => exact h.touched (.fireTripEffect id unit s)
  | unknown opcode => exact h

theorem completeCommandRead (id : BitVec 16) (c : Command) (h : s.Wired) : (completeCommandRead id c s).Wired := by
  unfold Machine.completeCommandRead
  split
  · exact h
  · have h1 : (s.dropRead .admin).Wired := h.aside rfl fun _ => rfl
    generalize s.dropRead .admin = s1 at h1
    dsimp only
    split
    · exact h1.touched (State.Touched.refl s1).endIfDrained
    · split
      · exact (h1.commandEffect id c).aside (lines_settleReply _ _ _) fun k => track_settleReply _ k _ _
      all_goals exact h1

/-! ## Resets and power-on -/

/-- After a reset every track is UNBOUND and no line has an owner (R81, R94). -/
theorem resetBlocks (s : State) : (resetBlocks s).Wired := by
  refine of_unbound (fun l => ?_) (fun l => ?_) fun k => ?_
  · rw [line_resetBlocks]; exact (Line.afterReset_sound _ _).1
  · rw [line_resetBlocks]; exact (Line.afterReset_sound _ _).2
  · rw [track_resetBlocks]; rfl

theorem softReset (h : s.Wired) : (softReset s).Wired := by
  unfold Machine.softReset
  split
  · exact h
  · have hb := (resetBlocks s).aside (lines_abandonUncarried _) (track_abandonUncarried _)
    exact hb.touched (State.Touched.refl _).endIfDrained

theorem hardReset (h : s.Wired) : (hardReset s).Wired := by
  unfold Machine.hardReset
  split
  · have ha : (abandonAll { s with port := { s.port with timh := 0 } }).Wired := h.aside rfl fun _ => rfl
    exact ha.touched (State.Touched.refl _).endIfDrained
  · have hr := resetBlocks s
    generalize Machine.resetBlocks s = b at hr
    have hb : (abandonAll b).Wired := hr.aside rfl fun _ => rfl
    exact hb.touched (State.Touched.refl _).endIfDrained

theorem powerOn (s : State) : (powerOn s).Wired := by
  refine of_unbound (fun l => ?_) (fun l => ?_) fun k => ?_
  · rw [line_powerOn]; exact Line.powerOn_sound
  · rw [line_powerOn]; rfl
  · rw [track_powerOn]; rfl

theorem writeRegister (offset : BitVec 32) (width : AccessWidth) (value : BitVec 32) (h : s.Wired) :
    (writeRegister offset width value s).Wired := by
  unfold Machine.writeRegister
  split
  · exact h
  · exact h
  · split
    · split
      · exact h
      · split
        · exact h.softReset
        · exact h.aside (lines_writeRun s _) fun k => track_writeRun s k _
    · split
      · exact h.touched ((State.Touched.refl s).writePost _ _)
      · split
        · exact h.touched ((State.Touched.refl s).writeRlse _ _)
        · split
          · exact h.aside rfl fun _ => rfl
          · exact h

/-! ## Every step -/

/-- Every command keeps the wiring. -/
theorem exec {t : State} {c : Instr} (h : s.Wired) (hx : exec c s = .next t) : t.Wired := by
  have touch := State.Touched.refl s
  cases c <;> (have e := Host.Outcome.next.inj hx; subst e)
  case powerOn => exact powerOn s
  case portReset => exact h.hardReset
  case ctrlReset run => exact h.softReset
  case ctrlRun run => exact h.aside (lines_writeRun s run) fun k => track_writeRun s k run
  case post selector index => exact h.touched (touch.writePost selector index)
  case rlse queue index => exact h.touched (touch.writeRlse queue index)
  case timlRead => exact h.aside rfl fun _ => rfl
  case registerWrite offset width value => exact h.writeRegister offset width value
  case readIssue => exact h.touched touch.issueGrant
  case stepReadCompletion k data => exact h.touched (touch.completeStepRead k data)
  case stepReadError k => exact h.touched (touch.failStepRead k)
  case readTimeout who => exact h.touched (touch.timeoutRead who)
  case adminReadCompletion record => exact h.completeCommandRead _ _
  case unknownOpcode id opcode =>
    split
    · exact h
    · exact h.completeCommandRead _ _
  case adminReadError => exact h.touched touch.failCommandRead
  case bufferWriteCompletion error => exact h.touched (touch.completeBuffer error)
  case startTimeReached k => exact h.touched (touch.reachStart k)
  case dueTimerExpiry k => exact h.touched (touch.expireDue k)
  case timeoutTimerExpiry k => exact h.touched (touch.expireTimeout k)
  case holdTimerExpiry k => exact h.touched (touch.expireHold k)
  case retireWordWriteDone k => exact h.touched (touch.completeRetireWord k false)
  case retireWordWriteError k => exact h.touched (touch.completeRetireWord k true)
  case rawChange l level => exact h.samplePin l level
  case windowExpiry l => exact h.expireWindow l
  case entryWriteCompletion q => exact h.touched (touch.completeEntry q)
  case entryWriteError q => exact h.touched (touch.failEntry q)
  case delayTimerExpiry q =>
    split
    · exact h.aside (lines_sendFor s q) fun k => track_sendFor s k q
    · exact h
  case vectorUnmask v => exact h.aside (lines_unmaskVector s v) fun k => track_unmaskVector s k v
  case vectorMask v => exact h.aside rfl fun _ => rfl
  all_goals exact h.completeCommandRead _ _

/-- One tick touches no line and no track. -/
theorem tick (h : s.Wired) : (tick s).Wired := by
  rw [tick_eq]
  exact h.aside rfl fun _ => rfl

theorem step {t : State} (h : s.Wired) (hx : step s = .next t) : t.Wired := by
  unfold Machine.step at hx
  split at hx
  · next rest _ => exact exec (s := { s with pending := rest }) (h.aside rfl fun _ => rfl) hx
  · exact Host.Outcome.next.inj hx ▸ h.tick


end State.Wired

/-- Settles O55: the two invariants together are kept by every command (`State.Wired.exec`) and by a tick. -/
theorem stepKeepsLinesAndLanes : Obligations.StepKeepsLinesAndLanes := by
  intro s t hlines hlanes hx
  exact wired_iff.mp ((wired_iff.mpr ⟨hlines, hlanes⟩).step hx)

end Sys2Proof.Machine
end

section
/-!
CERTIFICATE. What a reset makes of every line (R86, R94 to R96), an accepted SET-LINE (R87 to R89, R114) and the whole of SET-STATIC (R91).
-/

namespace Sys2Proof.Machine

/-! ## Resets (R94 to R96) -/

theorem line_resetWith (s : State) (reads : List PendingRead) (writes : List PendingWrite) (n : Nat) (l : LineId) :
    (resetWith s reads writes n).endIfDrained.line l = (s.line l).afterReset (s.pin l) := by
  have h := line_resetBlocks s l
  have he : (resetWith s reads writes n).endIfDrained.line l = (resetWith s reads writes n).line l := by
    simp only [State.line, lines_endIfDrained]
  rw [he]
  unfold resetWith
  generalize resetBlocks s = b at h ⊢
  exact h

/-- Settles O6: either reset leaves every line as `Line.afterReset` has it, mode by mode. -/
theorem resetParksLines : Obligations.ResetParksLines := by
  refine ⟨fun c s hc hd => ?_, fun d => ⟨rfl, rfl, rfl, rfl⟩⟩
  obtain ⟨reads, writes, n, hx⟩ := reset_completes hc hd
  refine ⟨_, hx, fun l => ?_⟩
  rw [line_resetWith]
  unfold Line.afterReset
  refine ⟨fun h => ?_, fun h => ?_, ?_, fun h => ?_⟩
  · rw [h]
  · rw [h]
  · rintro (h | h) <;> rw [h]
  · rw [h]

/-! ## SET-LINE (R87 to R89) -/

/-- The cell after SET-LINE, field by field. -/
theorem Line.setTo_eq {c : Line} {m : LineMode} (pin : Level) (now : Time) (level : Level) (safe : SafeMode) (window : BitVec 16)
    (capture : CaptureMode) (rq : QueueId) (interval : Bool) (hm : c.canBecome m) :
    c.setTo pin now m level safe window capture rq interval = { c with
      mode := m
      drive := c.driveIn m level
      staticLevel := if m = .static then level else c.staticLevel
      safeMode := safe, window := window, captureMode := capture, captureRq := rq, interval := interval
      raw := if c.starts m then pin else c.raw
      accepted := if c.starts m then pin else if c.restarts m window ∧ window = 0 then c.raw else c.accepted
      pendingStart := if c.restarts m window ∧ window ≠ 0 then some now
        else if c.starts m ∨ c.drops m window then none else c.pendingStart
      windowTimer := if c.restarts m window ∧ window ≠ 0 then some (now + ticksOf window)
        else if c.starts m ∨ c.drops m window then none else c.windowTimer
      lastRise := if c.starts m ∨ c.captureMode ≠ capture ∨ c.interval ≠ interval then none else c.lastRise
      lastFall := if c.starts m ∨ c.captureMode ≠ capture ∨ c.interval ≠ interval then none else c.lastFall } := by
  unfold Line.setTo
  dsimp only
  rw [Line.windowed_eq _ _ _ _ _ _ _ _ hm]
  by_cases hf : c.captureMode ≠ capture ∨ c.interval ≠ interval
  · simp only [if_pos hf, if_pos (Or.inr hf)]
    rfl
  · simp only [if_neg hf, or_iff_left hf]

/-- The static level drives a STATIC line alone (R88). -/
theorem Line.driveIn_congr (c : Line) {m : LineMode} {a b : Level} (h : m = .static → a = b) : c.driveIn m a = c.driveIn m b := by
  cases m
  case static => rw [h rfl]
  all_goals rfl

/-- A line that keeps a mode other than OFF and STATIC keeps its drive, but for INPUT that has none (R88). -/
theorem Line.driveIn_kept (c : Line) (level : Level) (ho : c.mode ≠ .off) (hs : c.mode ≠ .static) :
    c.driveIn c.mode level = if c.mode = .input then .float else c.drive := by
  unfold Line.driveIn
  cases h : c.mode
  case off => exact absurd h ho
  case static => exact absurd h hs
  all_goals rfl

/-- The mode byte of SET-LINE with the mode that results from it, where the line is free to take one (R88). -/
theorem setLineMode_results {b : Byte} {old m : LineMode}
    (h : (b = 0 ∧ m = old) ∨ (old ≠ .track ∧ ((b = 1 ∧ m = .off) ∨ (b = 2 ∧ m = .input) ∨ (b = 3 ∧ m = .static)))) :
    ∃ choice, setLineMode? b = some choice ∧ choice.resulting old = m ∧ ¬(old = .track ∧ choice ≠ .keep) := by
  rcases h with ⟨rfl, rfl⟩ | ⟨hn, ⟨rfl, rfl⟩ | ⟨rfl, rfl⟩ | ⟨rfl, rfl⟩⟩
  · exact ⟨.keep, rfl, rfl, fun h => h.2 rfl⟩
  · exact ⟨.give .off, rfl, rfl, fun h => hn h.1⟩
  · exact ⟨.give .input, rfl, rfl, fun h => hn h.1⟩
  · exact ⟨.give .static, rfl, rfl, fun h => hn h.1⟩

/-- SET-LINE past its checks (R87). -/
theorem setLineEffect_accepted {p : SetLineParams} {s : State} {l : LineId} {choice : ModeChoice} {safe : SafeMode}
    {capture : CaptureMode} {rq : QueueId} (hl : p.line.toNat = l.val) (hmode : setLineMode? p.mode = some choice)
    (hsafe : safeMode? p.safeMode = some safe) (hcapture : captureMode? p.captureMode = some capture)
    (hrq : p.captureRq.toNat = rq.val) (hlevel : choice.resulting (s.line l).mode = .static → level? p.staticLevel ≠ none)
    (hfree : ¬((s.line l).mode = .track ∧ choice ≠ .keep)) (hqueue : capture = .none ∨ (s.rq rq).state = .active) :
    setLineEffect p s = accept (applySetLine l (choice.resulting (s.line l).mode) ((level? p.staticLevel).getD .low) safe p.window
      capture rq p.interval s) := by
  rw [setLineEffect_eq hl hmode hsafe hcapture hrq, if_neg fun h => hlevel h.1 h.2, if_neg hfree,
    if_neg fun h => hqueue.elim h.1 h.2]

/-- No consumer hears an acceptance on a line that captures nothing, that no ARMED unit watches, with no track in INPUT-WAIT (R105). -/
theorem consumers_eq_nil {l : LineId} {s : State} (hc : (s.line l).captureMode = .none)
    (hu : ∀ u, (s.trip u).state = .armed → (s.trip u).source ≠ l) (hk : ∀ k, (s.track k).state ≠ .inputWait) :
    consumers l s = [] := by
  have htrips : (List.finRange 2).filter (fun u => (s.trip u).state = .armed && (s.trip u).source = l) = [] := by
    simpa using hu
  have htracks : (List.finRange 8).filter (fun t => (s.track t).state = .inputWait
      && ((s.track t).current.any fun step => recLine step.record = some l)) = [] := by
    simp [hk]
  unfold consumers
  rw [htrips, htracks, if_pos hc]
  rfl

/-- The row of an accepted SET-LINE whose immediate acceptance, if it makes one, nobody hears. -/
theorem setLine_completes {id : BitVec 16} {p : SetLineParams} {s : State} {l : LineId} {pos : Nat} {choice : ModeChoice}
    {safe : SafeMode} {capture : CaptureMode} {rq : QueueId} {m : LineMode} {cell : Line} (ht : s.takes pos)
    (hl : p.line.toNat = l.val) (hmode : setLineMode? p.mode = some choice) (hsafe : safeMode? p.safeMode = some safe)
    (hcapture : captureMode? p.captureMode = some capture) (hrq : p.captureRq.toNat = rq.val)
    (hm : choice.resulting (s.line l).mode = m) (hlevel : m = .static → level? p.staticLevel ≠ none)
    (hfree : ¬((s.line l).mode = .track ∧ choice ≠ .keep)) (hqueue : capture = .none ∨ (s.rq rq).state = .active)
    (hcell : (s.line l).setTo (s.pin l) s.time m ((level? p.staticLevel).getD .low) safe p.window capture rq p.interval = cell)
    (hheard : (s.line l).restarts m p.window → p.window = 0 →
      consumers l (s.taken.setLine l ((s.line l).windowed (s.pin l) s.time m ((level? p.staticLevel).getD .low) safe p.window capture rq
        p.interval)) = []) :
    ∃ s2, Completes (.setLine id p) s (handAdminDone (s.inHand pos id (.setLine p)) .ok none s2)
      ∧ s2 = { s.taken with lines := s2.lines } ∧ (∀ l', l' ≠ l → s2.line l' = s.line l') ∧ s2.line l = cell := by
  subst hm hcell
  have ha := applySetLine_eq (s := s.taken) _ _ _ _ _ _ _ _ hheard (canBecome_resulting hmode hfree)
  have he := (setLineEffect_accepted (s := s.taken) hl hmode hsafe hcapture hrq hlevel hfree hqueue).trans (congrArg accept ha)
  exact ⟨_, completes_answer rfl ht he, rfl, fun l' hl' => State.line_setLine_ne _ _ hl', State.line_setLine_self _ _ _⟩

/-- Settles O31: `setLine_completes` with the cell of `Line.setTo_eq`; in the second part nobody hears the immediate acceptance. -/
theorem setLineResult : Obligations.SetLineResult := by
  refine ⟨?settings, ?accepts⟩
  case settings =>
    intro id p l m safe capture rq level pos s ht hl hsafe hcapture hrq hmode hstatic hother hqueue c starts drops restarts forgets hw
    obtain ⟨choice, hchoice, hm, hfree⟩ := setLineMode_results hmode
    refine setLine_completes ht hl hchoice hsafe hcapture hrq hm (fun h => by rw [hstatic h]; nofun) hfree hqueue ?_
      fun h h0 => absurd h0 (hw h)
    have hr : (s.line l).restarts m p.window ∧ p.window ≠ 0 ↔ (s.line l).restarts m p.window := and_iff_left_of_imp hw
    have ha : ¬((s.line l).restarts m p.window ∧ p.window = 0) := fun h => hw h.1 h.2
    have hgiven : m = .static → (level? p.staticLevel).getD .low = level := fun h => by rw [hstatic h]; rfl
    have hs : (if m = .static then (level? p.staticLevel).getD .low else (s.line l).staticLevel) = level := by
      split
      · next h => exact hgiven h
      · next h => exact (hother h).symm
    rw [Line.setTo_eq _ _ _ _ _ _ _ _ (hm ▸ canBecome_resulting hchoice hfree), Line.driveIn_congr _ hgiven]
    simp only [hr, if_neg ha, hs]
    rfl
  case accepts =>
    intro id p l safe rq pos s ht hl hsafe hcapture hrq hmode hoff hstatic hw hold hraw hunits htracks
    have hchoice : setLineMode? p.mode = some .keep := by rw [hmode]; rfl
    have hnone : captureMode? p.captureMode = some .none := by rw [hcapture]; rfl
    have hm : (s.line l).canBecome (s.line l).mode := fun _ => rfl
    refine setLine_completes ht hl hchoice hsafe hnone hrq (m := (s.line l).mode) rfl (absurd · hstatic) (fun h => h.2 rfl) (.inl rfl)
      ?_ fun _ _ => ?_
    · have hs : ¬(s.line l).starts (s.line l).mode := fun h => h.2 h.1
      have hr : (s.line l).restarts (s.line l).mode 0 := ⟨hs, hoff, hold, hraw⟩
      have hd : (s.line l).drops (s.line l).mode 0 := .inr ⟨hoff, hold⟩
      rw [Line.setTo_eq _ _ _ _ _ _ _ _ hm, Line.driveIn_kept _ _ hoff hstatic]
      simp only [hw, if_neg hs, if_neg hstatic, or_iff_right hs, and_true, if_pos hr, ne_eq, not_true_eq_false, and_false, if_false,
        if_pos hd]
    · refine consumers_eq_nil ?_ hunits htracks
      rw [State.line_setLine_self, Line.windowed_eq _ _ _ _ _ _ _ _ hm]

/-! ## SET-STATIC (R91) -/

theorem State.mapLines_congr {s : State} {f g : LineId → Line → Line} (h : ∀ l, f l (s.line l) = g l (s.line l)) :
    s.mapLines f = s.mapLines g := by
  have hf : (fun l : Fin 48 => f l s.lines[l]) = fun l => g l s.lines[l] := funext h
  unfold State.mapLines
  rw [hf]

theorem State.mapLines_self {s : State} {f : LineId → Line → Line} (h : ∀ l, f l (s.line l) = s.line l) : s.mapLines f = s := by
  have hf : (fun l : Fin 48 => f l s.lines[l]) = fun l => s.lines[l] := funext h
  have hv : (Vector.ofFn fun l : Fin 48 => s.lines[l]) = s.lines := by
    ext i hi
    simp
  unfold State.mapLines
  rw [hf, hv]

theorem claimStatic_eq (mask levels : BitVec 48) (s : State) :
    claimStatic mask levels s = { s with lines := (claimStatic mask levels s).lines } := by
  unfold claimStatic State.mapLines
  rfl

theorem line_claimStatic (mask levels : BitVec 48) (s : State) (l : LineId) : (claimStatic mask levels s).line l =
    if mask.getLsbD l.val then
      { s.line l with
        staticLevel := if levels.getLsbD l.val then .high else .low
        drive := if levels.getLsbD l.val then .high else .low }
    else s.line l := by
  rw [claimStatic, State.line_mapLines, driveOf_levelOf]
  rfl

/-- Level bits outside the mask are not read. -/
theorem claimStatic_congr {mask levels levels' : BitVec 48} (s : State)
    (h : ∀ l : LineId, mask.getLsbD l.val = true → levels'.getLsbD l.val = levels.getLsbD l.val) :
    claimStatic mask levels' s = claimStatic mask levels s := by
  refine State.mapLines_congr fun l => ?_
  split
  · next hl => rw [h l hl]
  · rfl

theorem claimStatic_zero (levels : BitVec 48) (s : State) : claimStatic 0 levels s = s :=
  State.mapLines_self fun l => if_neg (by simp)

theorem setStaticEffect_state {mask : BitVec 48} (levels : BitVec 48) {s : State}
    (h : ∃ l : LineId, mask.getLsbD l.val = true ∧ (s.line l).mode ≠ .static) : setStaticEffect mask levels s = refuse .state s :=
  if_pos (by simpa using h)

theorem setStaticEffect_accepted {mask : BitVec 48} (levels : BitVec 48) {s : State}
    (h : ∀ l : LineId, mask.getLsbD l.val = true → (s.line l).mode = .static) :
    setStaticEffect mask levels s = accept (claimStatic mask levels s) :=
  if_neg (by simpa using h)

/-- Settles O33: the two answers of `setStaticEffect`, and the claim line by line. -/
theorem setStaticResult : Obligations.SetStaticResult := by
  intro id mask levels pos s ht h
  refine ⟨fun hn => completes_answer rfl ht (setStaticEffect_state (s := s.taken) levels hn), fun hs => ?_⟩
  refine ⟨claimStatic mask levels s.taken, completes_answer rfl ht (setStaticEffect_accepted (s := s.taken) levels hs),
    claimStatic_eq mask levels s.taken, line_claimStatic mask levels s.taken, ?_, fun levels' hl => ?_⟩
  · rintro rfl
    exact claimStatic_zero levels s.taken
  · have he : commandEffect id (.setStatic mask levels') s.taken = accept (claimStatic mask levels' s.taken) :=
      setStaticEffect_accepted (s := s.taken) levels' hs
    rw [he, ← claimStatic_congr s.taken hl]
    rfl

end Sys2Proof.Machine
end

section
/-!
SUPPORT. Who receives an acceptance (R105), what the sampler takes of a pin (R99), and a cell that is PENDING or SETTLED as its level
changes (R98, R101).
-/

namespace Sys2Proof.Machine

/-! ## The consumers of an acceptance (R105) -/

/-- The consumers an acceptance goes to are those it gives something to do. -/
theorem mem_consumers {l : LineId} {s : State} {x : Consumer} : x ∈ consumers l s ↔ s.concerns l x := by
  cases x with
  | capture =>
    have hc : Consumer.capture ∈ (if (s.line l).captureMode = .none then [] else [Consumer.capture])
        ↔ (s.line l).captureMode ≠ .none := by split <;> simp [*]
    simp [consumers, State.concerns, hc]
  | trip u => simp [consumers, State.concerns]
  | track k =>
    have hs : ((s.track k).current.any fun step => recLine step.record = some l) = true
        ↔ ∃ step, (s.track k).current = some step ∧ recLine step.record = some l := by simp [Option.any_eq_true]
    simp [consumers, State.concerns, hs]

/-- No consumer receives an acceptance twice. -/
theorem consumers_nodup (l : LineId) (s : State) : (consumers l s).Nodup := by
  have hcapture : (if (s.line l).captureMode = .none then [] else [Consumer.capture]).Nodup := by split <;> simp
  have htrips : ∀ p : UnitId → Bool, (((List.finRange 2).filter p).map Consumer.trip).Nodup := fun p =>
    ((List.nodup_finRange 2).filter p).map fun _ _ => Consumer.trip.inj
  have htracks : ∀ p : TrackId → Bool, (((List.finRange 8).filter p).map Consumer.track).Nodup := fun p =>
    ((List.nodup_finRange 8).filter p).map fun _ _ => Consumer.track.inj
  refine (hcapture.append (htrips _) ?trips).append (htracks _) ?tracks
  case trips => exact List.disjoint_right.mpr (List.forall_mem_map.mpr fun u _ => by split <;> simp)
  case tracks => exact List.disjoint_right.mpr (List.forall_mem_map.mpr fun k _ => by split <;> simp)

/-- An acceptance hands its record out, from the state in which its line has the accepted level (R105). -/
theorem acceptance_handedOut (l : LineId) (level : Level) (edge : Time) (delay : BitVec 16) (s : State) :
    HandedOut l level edge delay (s.setLine l { s.line l with accepted := level }) (acceptance l level edge delay s) := by
  unfold acceptance
  dsimp only
  generalize s.setLine l { s.line l with accepted := level } = s1
  have hperm := freeOrder_perm s1 (consumers l s1)
  exact ⟨s1.freeOrder (consumers l s1), _, hperm.nodup_iff.mpr (consumers_nodup l s1), fun x => hperm.mem_iff.trans mem_consumers,
    congrArg (List.foldl (consume l level edge delay) · _) (afterOrder_eq s1 (consumers l s1))⟩

/-- An acceptance on a line whose cell has just been set. -/
theorem acceptance_setLine_handedOut (l : LineId) (level : Level) (edge : Time) (delay : BitVec 16) (s : State) (c : Line) :
    HandedOut l level edge delay (s.setLine l { c with accepted := level }) (acceptance l level edge delay (s.setLine l c)) := by
  have h := acceptance_handedOut l level edge delay (s.setLine l c)
  rwa [State.line_setLine_self, State.setLine_setLine] at h

/-! ## Samples (R99) -/

/-- No readback of a claim of this tick: the drive stands as the tick began, or the pin does, or the driver opposes the level. -/
theorem ownReadback_eq_false {l : LineId} {level : Level} {s : State} : ownReadback l level s = false ↔
    (s.line l).drive = s.sampler.drives[l] ∨ s.sampler.pins[l] = level
      ∨ ((s.line l).drive ≠ .float ∧ (s.line l).drive ≠ driveOf level) := by
  simp [ownReadback, or_iff_not_imp_left]

/-- The model's sampler takes what `State.sampleTaken` says it takes. -/
theorem sampleTaken_iff {l : LineId} {level : Level} {s : State} :
    s.sampleTaken l level ↔ s.sampler.changed[l] = false ∧ ownReadback l level s = false :=
  and_congr_right' ownReadback_eq_false.symm

/-- Where there is no raw change, or the sampler leaves it to a later tick, the pin alone is recorded (R99). -/
theorem samplePin_still {l : LineId} {level : Level} {s : State}
    (h : (s.line l).mode = .off ∨ (s.line l).raw = level ∨ ¬s.sampleTaken l level) :
    samplePin l level s = { s with pins := s.pins.set l level } :=
  if_pos (by simpa [sampleTaken_iff, -not_and, not_and_or] using h)

/-- A raw change that the sampler takes is judged with its pin and its sample recorded (R99). -/
theorem samplePin_taken {l : LineId} {level : Level} {s : State} (hm : (s.line l).mode ≠ .off) (hr : (s.line l).raw ≠ level)
    (h : s.sampleTaken l level) : samplePin l level s = rawChanged l level (s.sampled l level) := by
  obtain ⟨hchanged, hreadback⟩ := sampleTaken_iff.mp h
  exact if_neg (by simp [hm, hr, hchanged, hreadback])

/-! ## The conditioner (R98, R100, R101) -/

theorem Line.discardPending_self {c : Line} (hp : c.pendingStart = none) (ht : c.windowTimer = none) : c.discardPending = c := by
  obtain ⟨_, _⟩ := c
  cases hp
  cases ht
  rfl

/-- With window 0 a raw change is accepted in its event (R100). -/
theorem rawChanged_unfiltered {l : LineId} {s : State} (level : Level) (hw : (s.line l).window = 0)
    (hp : (s.line l).pendingStart = none) (ht : (s.line l).windowTimer = none) :
    rawChanged l level s = acceptance l level s.time 0 (s.setLine l { s.line l with raw := level }) :=
  (if_pos hw).trans (congrArg (fun c => acceptance l level s.time 0 (s.setLine l c)) (Line.discardPending_self hp ht))

/-- With a window a raw change on a SETTLED line starts a pending change (R101). -/
theorem rawChanged_settled {l : LineId} {s : State} (level : Level) (hw : (s.line l).window ≠ 0)
    (hp : (s.line l).pendingStart = none) :
    rawChanged l level s = s.setLine l (({ s.line l with raw := level } : Line).startPending s.time) :=
  (if_neg hw).trans (if_pos hp)

/-- With a window a raw change on a PENDING line is a glitch (R101). -/
theorem rawChanged_pending {l : LineId} {s : State} (level : Level) (hw : (s.line l).window ≠ 0)
    (hp : (s.line l).pendingStart ≠ none) :
    rawChanged l level s = s.setLine l ({ s.line l with raw := level } : Line).glitched :=
  (if_neg hw).trans (if_neg hp)

/-- A sound line with no pending change has accepted its raw level (R98). -/
theorem Line.sound.raw_eq {c : Line} (h : c.sound) (hm : c.mode ≠ .off) (hp : c.pendingStart = none) : c.raw = c.accepted := by
  obtain ⟨-, ⟨-, -, hr⟩ | ⟨-, -, -, start, hs, -⟩, -⟩ := Line.sound_iff.mp h
  · exact hr hm
  · exact absurd (hp.symm.trans hs) nofun

/-- The raw level of a sound line that is PENDING is off the accepted level (R98). -/
theorem Line.sound.raw_ne {c : Line} (h : c.sound) (hp : c.pendingStart ≠ none) : c.raw ≠ c.accepted := by
  obtain ⟨-, ⟨hs, -⟩ | ⟨-, hr, -⟩, -⟩ := Line.sound_iff.mp h
  · exact absurd hs hp
  · exact hr

/-- A saturating count rises up to its largest value. -/
theorem satInc_eq {w : Nat} {x top : BitVec w} (h : BitVec.allOnes w = top) : satInc x = if x = top then top else x + 1 := by
  subst h
  exact ite_congr rfl id fun _ => rfl

/-- The glitch that ends a pending change (R101). -/
theorem Line.glitched_eq (c : Line) : c.glitched = { c with
    pendingStart := none, windowTimer := none, glitch := if c.glitch = 65535 then 65535 else c.glitch + 1 } := by
  rw [Line.glitched, satInc_eq (top := 65535) rfl]
  rfl

/-- The window timer of a PENDING line, when its moment has come: the raw level is accepted (R102). -/
theorem expireWindow_reached {l : LineId} {s : State} {start moment : Time} (hp : (s.line l).pendingStart = some start)
    (ht : (s.line l).windowTimer = some moment) (h : moment ≤ s.time) :
    expireWindow l s
      = acceptance l (s.line l).raw start (s.line l).window (s.setLine l (s.line l).discardPending) := by
  have hr : reached (s.line l).windowTimer s.time = true := by simpa [ht, reached] using h
  unfold expireWindow
  rw [hp]
  exact if_pos hr

/-! ## The capture stage (R107 to R111) -/

/-- The capture mode wants the levels its name says (R108). -/
theorem CaptureMode.wants_iff {m : CaptureMode} {level : Level} :
    m.wants level = true ↔ m = .both ∨ (m = .rise ∧ level = .high) ∨ (m = .fall ∧ level = .low) := by
  cases m <;> simp [CaptureMode.wants]

/-- A matching acceptance: the CAPTURE is handed over, the missed count follows the decision and the edge time is recorded. -/
theorem captureAcceptance_matching {l : LineId} {level : Level} {s : State} (edge : Time) (delay : BitVec 16)
    (hc : (s.line l).captureMode ≠ .none) (hw : (s.line l).captureMode.wants level = true) :
    captureAcceptance l level edge delay s
      = (handReport (s.line l).captureRq (captureReport l level edge delay s) s).setLine l
          (({ s.line l with missed := if s.decision (s.line l).captureRq = .posted then 0 else satInc (s.line l).missed } : Line).recordEdge
            level edge) := by
  unfold captureAcceptance
  dsimp only
  rw [if_neg hc, if_pos hw, State.line_setLine_self, State.setLine_setLine]

/-- Of an acceptance that does not match, the edge time is recorded and nothing else (R107). -/
theorem captureAcceptance_unwanted {l : LineId} {level : Level} {s : State} (edge : Time) (delay : BitVec 16)
    (hc : (s.line l).captureMode ≠ .none) (hw : ¬(s.line l).captureMode.wants level = true) :
    captureAcceptance l level edge delay s = s.setLine l ((s.line l).recordEdge level edge) := by
  unfold captureAcceptance
  dsimp only
  rw [if_neg hc, if_neg hw]

end Sys2Proof.Machine
end

section
/-!
CERTIFICATE. Raw changes (R99 to R101), window expiries (R102), the hand-out of an acceptance (R105) and the capture stage (R107 to R111).
-/

namespace Sys2Proof.Machine

/-- Settles O34: `acceptance_setLine_handedOut` with window 0; a start or a glitch by `rawChanged_settled` and `rawChanged_pending`. -/
theorem rawChangeTaken : Obligations.RawChangeTaken := by
  refine ⟨?unfiltered, ?filtered, fun l level edge delay s => ⟨rfl, fun _ => rfl, fun _ => rfl⟩⟩
  case unfiltered =>
    intro l level s hm hr hw hp ht hs
    have hrow := (samplePin_taken hm hr hs).trans (rawChanged_unfiltered (s := s.sampled l level) level hw hp ht)
    exact ⟨_, congrArg Host.Outcome.next hrow,
      acceptance_setLine_handedOut l level s.time 0 (s.sampled l level) { s.line l with raw := level }⟩
  case filtered =>
    intro l level s hsound hm hr hw hs c
    have hrow := samplePin_taken hm hr hs
    refine ⟨fun hp => ⟨?_, ?_⟩, fun hp => ⟨Level.eq_of_ne hr (hsound.raw_ne hp), ?_⟩⟩
    · exact hsound.raw_eq hm hp ▸ hr.symm
    · exact congrArg Host.Outcome.next (hrow.trans (rawChanged_settled (s := s.sampled l level) level hw hp))
    · have hg := hrow.trans (rawChanged_pending (s := s.sampled l level) level hw hp)
      rw [Line.glitched_eq] at hg
      exact congrArg Host.Outcome.next hg

/-- Settles O36: `captureAcceptance_matching` and `captureAcceptance_unwanted`. -/
theorem captureStage : Obligations.CaptureStage := by
  intro l level edge delay s hc c same other carried matching r c'
  have hwants : c.captureMode.wants level = true ↔ matching := CaptureMode.wants_iff
  have hreport : captureReport l level edge delay s = r := by cases level <;> rfl
  have hcell : ∀ missed, ({ c with missed := missed } : Line).recordEdge level edge = c' missed := fun missed => by cases level <;> rfl
  refine ⟨fun hm hd => ?_, fun hm hd => ?_, fun hm => ?_⟩
  · rw [captureAcceptance_matching edge delay hc (hwants.mpr hm), hreport, hcell, if_pos hd]
  · rw [captureAcceptance_matching edge delay hc (hwants.mpr hm), hreport, hcell, if_neg hd, satInc_byte]
  · exact (captureAcceptance_unwanted edge delay hc (mt hwants.mp hm)).trans (congrArg (s.setLine l) (hcell c.missed))

/-- Settles O35: `acceptance_setLine_handedOut` after `expireWindow_reached`, and `samplePin_still`. -/
theorem windowExpiryAndStillSample : Obligations.WindowExpiryAndStillSample := by
  refine ⟨fun l start moment s hp ht h => ?_, fun l level s h => congrArg Host.Outcome.next (samplePin_still h)⟩
  exact ⟨_, congrArg Host.Outcome.next (expireWindow_reached hp ht h),
    acceptance_setLine_handedOut l (s.line l).raw start (s.line l).window s (s.line l).discardPending⟩

end Sys2Proof.Machine
end

section
/-!
SUPPORT. Entry into SAFE of several tracks, one after another, as a fire and a device fault make it (R122, R132); a fire and the tracks it
moves (R122 to R124).
-/

namespace Sys2Proof.Machine

/-! ## One track -/

theorem canEnterSafe_iff {c : Track} : c.canEnterSafe = true ↔ c.state ≠ .unbound ∧ c.state ≠ .safe := by
  simp [Track.canEnterSafe]

/-- The context of a track that an event from outside its chain moves into SAFE where its state allows it. -/
def Track.forced (c : Track) (cause : SafeCause) : Track := if c.canEnterSafe then c.toSafe cause c.safeOrigin else c

theorem Track.forced_moved {c : Track} (cause : SafeCause) (h : c.canEnterSafe = true) :
    c.forced cause = c.toSafe cause c.safeOrigin := if_pos h

theorem Track.forced_kept {c : Track} (cause : SafeCause) (h : ¬c.canEnterSafe = true) : c.forced cause = c := if_neg h

/-- A forced track rests in SAFE, or is UNBOUND as it was. -/
theorem Track.forced_state (c : Track) (cause : SafeCause) :
    (c.forced cause).state = if c.state = .unbound then .unbound else .safe := by
  by_cases h : c.canEnterSafe = true
  · rw [Track.forced_moved cause h, if_neg (canEnterSafe_iff.mp h).1]
    rfl
  · rw [Track.forced_kept cause h]
    split
    · assumption
    · next hu => exact by_contra fun hs => h (canEnterSafe_iff.mpr ⟨hu, hs⟩)

theorem enterSafe_track_ne {t k : TrackId} (cause : SafeCause) (origin : SafeFrom) (s : State) (h : k ≠ t) :
    (enterSafe t cause origin s).track k = s.track k :=
  ((otherTrack_trackClosed s t).enterSafe cause origin ⟨fun _ _ => rfl, rfl⟩).1 k h

theorem track_forceSafe (t k : TrackId) (cause : SafeCause) (s : State) :
    (forceSafe t cause s).track k = if k = t then (s.track k).forced cause else s.track k := by
  unfold forceSafe
  split
  · next hc =>
    split
    · next e => rw [e, track_enterSafe, Track.forced_moved cause hc]
    · next e => exact enterSafe_track_ne cause _ s e
  · next hc =>
    split
    · next e => rw [e, Track.forced_kept cause hc]
    · rfl

/-- The cell of a line whose safe-mode result is claimed (R86). -/
def Line.madeSafe (c : Line) : Line := { c with drive := safeResult c.safeMode c.drive }

theorem line_forceSafe (t : TrackId) (cause : SafeCause) (s : State) (l : LineId) :
    (forceSafe t cause s).line l =
      if (s.line l).ownedBy t = true ∧ (s.track t).canEnterSafe = true then (s.line l).madeSafe else s.line l := by
  unfold forceSafe
  split
  · next hc =>
    rw [enterSafe_eq, handReport_line, line_claimSafe, State.setTrack_line]
    exact if_congr (iff_self_and.mpr fun _ => hc) rfl rfl
  · next hc => rw [if_neg fun h => hc h.2]

/-! ## Several tracks, one after another -/

/-- These tracks are moved into SAFE in this order, each where its state allows it (R122, R132). -/
def forceAll (cause : SafeCause) (ts : List TrackId) (s : State) : State := ts.foldl (fun s' t => forceSafe t cause s') s

section ForceAll

variable (cause : SafeCause) (ts : List TrackId) (s : State)

theorem forceAll_sameOutside : SameOutside s (forceAll cause ts s) :=
  foldl_keeps _ (fun _ t h => (sameOutside_trackClosed s t).forceSafe cause h) ts (sameOutside_refl s)

theorem trips_forceAll : (forceAll cause ts s).trips = s.trips :=
  foldl_keeps (P := fun s' => s'.trips = s.trips) _
    (fun s' t h => ((otherTrack_trackClosed s' t).forceSafe cause ⟨fun _ _ => rfl, rfl⟩).2.trans h) ts rfl

variable {ts} (hn : ts.Nodup)

include hn

theorem track_forceAll (k : TrackId) :
    (forceAll cause ts s).track k = if k ∈ ts then (s.track k).forced cause else s.track k := by
  induction ts generalizing s with
  | nil => simp [forceAll]
  | cons t ts ih =>
    obtain ⟨ht, hn⟩ := List.nodup_cons.mp hn
    change (forceAll cause ts (forceSafe t cause s)).track k = _
    rw [ih _ hn, track_forceSafe]
    by_cases e : k = t
    · subst e; simp [ht]
    · simp [e]

/-- A line takes its safe-mode result when its owner is one of these tracks and enters SAFE (R129). -/
theorem line_forceAll (l : LineId) : (forceAll cause ts s).line l =
    match (s.line l).owner with
    | none => s.line l
    | some o => if o.track ∈ ts ∧ (s.track o.track).canEnterSafe = true then (s.line l).madeSafe else s.line l := by
  induction ts generalizing s with
  | nil => cases ho : (s.line l).owner <;> simp [forceAll]
  | cons t ts ih =>
    obtain ⟨ht, hn⟩ := List.nodup_cons.mp hn
    have howner : ((forceSafe t cause s).line l).owner = (s.line l).owner := by
      rw [line_forceSafe]
      split <;> rfl
    change (forceAll cause ts (forceSafe t cause s)).line l = _
    rw [ih _ hn, howner]
    cases ho : (s.line l).owner with
    | none => simp [line_forceSafe, Line.ownedBy, ho]
    | some o =>
      dsimp only
      rw [track_forceSafe, line_forceSafe]
      by_cases e : o.track = t
      · simp [Line.ownedBy, ho, e, ht]
      · simp [Line.ownedBy, ho, e]

/-- When every one of these tracks can enter SAFE, each of them does, started or not as its state was at the beginning. -/
theorem forceAll_eq_enterSafe (hc : ∀ t ∈ ts, (s.track t).canEnterSafe = true) :
    forceAll cause ts s = ts.foldl (fun s' t => enterSafe t cause (s.track t).safeOrigin s') s := by
  suffices h : ∀ s' : State, (∀ t ∈ ts, s'.track t = s.track t) →
      forceAll cause ts s' = ts.foldl (fun s' t => enterSafe t cause (s.track t).safeOrigin s') s' from h s fun _ _ => rfl
  induction ts with
  | nil => exact fun _ _ => rfl
  | cons t ts ih =>
    intro s' hs
    obtain ⟨ht, hn⟩ := List.nodup_cons.mp hn
    have hstep : forceSafe t cause s' = enterSafe t cause (s.track t).safeOrigin s' := by
      rw [forceSafe, hs t List.mem_cons_self, if_pos (hc t List.mem_cons_self)]
    change forceAll cause ts (forceSafe t cause s') = _
    rw [List.foldl_cons, hstep]
    refine ih hn (fun k hk => hc k (List.mem_cons_of_mem t hk)) _ fun k hk => ?_
    rw [enterSafe_track_ne _ _ _ (ne_of_mem_of_not_mem hk ht)]
    exact hs k (List.mem_cons_of_mem t hk)

end ForceAll

/-! ## A fire -/

/-- Bit `i` of a bit field is what the field says of number `i`. -/
theorem getLsbD_bitsOf {n : Nat} (f : Fin n → Bool) (i : Fin n) : (bitsOf n f).getLsbD i.val = f i := by
  have hbit : ∀ (n : Nat) (f : Fin n → Bool) (i : Fin n),
      ((List.finRange n).foldr (fun i rest => (f i).toNat + 2 * rest) 0).testBit i.val = f i := by
    intro n
    induction n with
    | zero => exact fun _ i => i.elim0
    | succ n ih =>
      intro f i
      rw [List.finRange_succ, List.foldr_cons, List.foldr_map]
      refine Fin.cases ?_ (fun j => ?_) i
      · cases f 0 <;> simp [Nat.testBit_zero, Nat.add_mod]
      · rw [Fin.val_succ, Nat.testBit_succ, ← ih (fun j => f j.succ) j]
        congr 1
        cases f 0 <;> simp; omega
  rw [bitsOf, BitVec.getLsbD_ofNat, hbit, decide_eq_true i.isLt, Bool.true_and]

/-- A fire moves the tracks of the mask that are bound and not SAFE (R123). -/
theorem mem_movable {s : State} {mask : BitVec 8} {k : TrackId} :
    k ∈ movable s mask ↔ mask.getLsbD k.val = true ∧ (s.track k).state ≠ .unbound ∧ (s.track k).state ≠ .safe := by
  simp [movable, canEnterSafe_iff]

theorem movable_nodup (s : State) (mask : BitVec 8) : (movable s mask).Nodup := (List.nodup_finRange 8).filter _

/-- The tracks that a fire moves, as its record and its report name them (R122, R124). -/
def movedMask (s : State) (mask : BitVec 8) : BitVec 8 := bitsOf 8 fun t => (movable s mask).contains t

theorem getLsbD_movedMask {s : State} {mask : BitVec 8} {k : TrackId} :
    (movedMask s mask).getLsbD k.val = true ↔ k ∈ movable s mask := by
  rw [movedMask, getLsbD_bitsOf, List.contains_iff_mem]

/-- The state in which a unit is FIRED and its tracks still are as they were. -/
def firedAlone (u : UnitId) (cause : FireCause) (s : State) : State :=
  s.setTrip u { s.trip u with
    state := .fired, lastFire := some { cause := cause, time := s.time, moved := movedMask s (s.trip u).mask } }

/-- The order in which the tracks of a fire take it (log entry 4). -/
def fireOrder (u : UnitId) (s : State) : List TrackId := s.freeOrder (movable s (s.trip u).mask)

/-- The state in which the tracks of a fire have taken it and its report is still to be handed. -/
def fireMoves (u : UnitId) (cause : FireCause) (s : State) : State :=
  forceAll (.trip u) (fireOrder u s) ((firedAlone u cause s).afterOrder (movable s (s.trip u).mask))

/-- A fire: the unit, its tracks in their order, and TRIP handed to RQ0 last (R122 to R124). -/
theorem fire_eq (u : UnitId) (cause : FireCause) (edge : Option Time) (tag : BitVec 16) (s : State) :
    fire u cause edge tag s =
      handReport 0 { source := BitVec.ofNat 8 u.val, tag := tag, time := s.time
                     body := .trip cause (movedMask s (s.trip u).mask) edge } (fireMoves u cause s) := rfl

section FireMoves

variable (u : UnitId) (cause : FireCause) (s : State)

theorem mem_fireOrder {k : TrackId} : k ∈ fireOrder u s ↔ k ∈ movable s (s.trip u).mask := mem_freeOrder s _

theorem fireOrder_nodup : (fireOrder u s).Nodup := (freeOrder_perm s _).nodup_iff.mpr (movable_nodup s _)

/-- A fire moves the tracks of its mask into SAFE where their state allows it, and no other track (R123). -/
theorem track_fireMoves (k : TrackId) : (fireMoves u cause s).track k =
    if k ∈ movable s (s.trip u).mask then (s.track k).toSafe (.trip u) (s.track k).safeOrigin else s.track k := by
  rw [fireMoves, track_forceAll _ _ (fireOrder_nodup u s), track_afterOrder]
  change (if k ∈ fireOrder u s then (s.track k).forced (.trip u) else s.track k) = _
  refine if_ctx_congr (mem_fireOrder u s) (fun h => ?_) fun _ => rfl
  exact Track.forced_moved _ (canEnterSafe_iff.mpr (mem_movable.mp h).2)

theorem trip_fireMoves (v : UnitId) : (fireMoves u cause s).trip v = (firedAlone u cause s).trip v := by
  simp only [State.trip]
  rw [fireMoves, trips_forceAll, afterOrder_eq]

theorem trip_fireMoves_ne {v : UnitId} (h : v ≠ u) : (fireMoves u cause s).trip v = s.trip v := by
  rw [trip_fireMoves, firedAlone, State.trip_setTrip_ne _ _ h]

theorem fireMoves_sameOutside : SameOutside s (fireMoves u cause s) := by
  have h := forceAll_sameOutside (.trip u) (fireOrder u s) ((firedAlone u cause s).afterOrder (movable s (s.trip u).mask))
  rw [afterOrder_eq] at h
  rw [fireMoves, afterOrder_eq]
  exact h

end FireMoves

end Sys2Proof.Machine
end

section
/-!
SUPPORT. What an event may do to the state of a track, to the trip units and to a FAULTED device (R122, R128, R188): the premises under
which the operations of the model keep SAFE tracks SAFE, the tracks of FIRED units at rest and FAULTED devices FAULTED.
-/

namespace Sys2Proof.Machine

/-! ## What is kept -/

/-- A track in this state is not ARMED, running or PAUSED: the states that R122 leaves to the tracks of a FIRED unit. -/
abbrev TrackState.rests (st : TrackState) : Prop := st = .unbound ∨ st = .stopped ∨ st = .safe

/-- Every track that is not free to leave SAFE is still there, the FIRED units still hold their tracks, and a FAULTED device is still
FAULTED. -/
structure State.Kept (free : TrackId → Prop) (s0 s : State) : Prop where
  safe : ∀ k, ¬free k → (s0.track k).state = .safe → (s.track k).state = .safe
  hold : s0.tripsHold → s.tripsHold
  dev : s0.port.dev = .faulted → s.port.dev = .faulted

/-- A track may go from one state to another: out of SAFE when it is free to, and out of rest when no FIRED unit holds it. -/
structure MayMove (free held : Prop) (a b : TrackState) : Prop where
  safe : ¬free → a = .safe → b = .safe
  rests : held → a.rests → b.rests

section MayMove

variable {free held : Prop} {a b : TrackState}

theorem mayMove_same (h : b = a) : MayMove free held a b := ⟨fun _ e => h.trans e, fun _ e => h ▸ e⟩

/-- An ARMED, running or PAUSED track may go anywhere. -/
theorem mayMove_active (h : ¬a.rests) : MayMove free held a b := ⟨fun _ e => absurd (.inr (.inr e)) h, fun _ e => absurd e h⟩

theorem mayMove_toSafe (h : b = .safe) : MayMove free held a b := ⟨fun _ _ => h, fun _ _ => .inr (.inr h)⟩

theorem mayMove_toRest (h : ¬free → a ≠ .safe) (hb : b.rests) : MayMove free held a b :=
  ⟨fun hf e => absurd e (h hf), fun _ _ => hb⟩

/-- A track that no FIRED unit holds may start. -/
theorem mayMove_unheld (h : ¬free → a ≠ .safe) (hh : ¬held) : MayMove free held a b :=
  ⟨fun hf e => absurd e (h hf), fun e => absurd e hh⟩

end MayMove

/-- The tracks and the trip units are as they were, and a FAULTED device is still FAULTED. -/
structure State.Aside (s s' : State) : Prop where
  track : ∀ k, s'.track k = s.track k
  trips : s'.trips = s.trips
  dev : s.port.dev = .faulted → s'.port.dev = .faulted

/-- An event of one track: no other track, no trip unit and nothing outside the tracks' concerns is touched. -/
def EventOf (t : TrackId) (s s' : State) : Prop :=
  ((∀ k, k ≠ t → s'.track k = s.track k) ∧ s'.trips = s.trips) ∧ SameOutside s s'

/-- Two properties that the parts of an event keep are kept together. -/
theorem TrackClosed.and {t : TrackId} {P Q : State → Prop} (hP : TrackClosed t P) (hQ : TrackClosed t Q) :
    TrackClosed t fun s => P s ∧ Q s where
  report q r s h := ⟨hP.report q r s h.1, hQ.report q r s h.2⟩
  context c s hc h := ⟨hP.context c s hc h.1, hQ.context c s hc h.2⟩
  claim f s ho hd h := ⟨hP.claim f s ho hd h.1, hQ.claim f s ho hd h.2⟩
  retireWord a d s h := ⟨hP.retireWord a d s h.1, hQ.retireWord a d s h.2⟩

theorem eventOf_trackClosed (s : State) (t : TrackId) : TrackClosed t (EventOf t s) :=
  (otherTrack_trackClosed s t).and (sameOutside_trackClosed s t)

theorem eventOf_refl (t : TrackId) (s : State) : EventOf t s s := ⟨⟨fun _ _ => rfl, rfl⟩, sameOutside_refl s⟩

theorem eventOf_setTrack (t : TrackId) (c : Track) (s : State) : EventOf t s (s.setTrack t c) :=
  ⟨⟨fun _ hk => s.track_setTrack_ne c hk, rfl⟩, by simp [SameOutside]⟩

namespace State.Aside

variable {s s' s'' : State}

theorem refl (s : State) : s.Aside s := ⟨fun _ => rfl, rfl, id⟩

theorem trans (h : s.Aside s') (h' : s'.Aside s'') : s.Aside s'' :=
  ⟨fun k => (h'.track k).trans (h.track k), h'.trips.trans h.trips, h'.dev ∘ h.dev⟩

theorem same (ht : s'.tracks = s.tracks) (hu : s'.trips = s.trips) (hp : s'.port = s.port) : s.Aside s' :=
  ⟨fun k => by simp only [State.track, ht], hu, fun e => by rwa [hp]⟩

end State.Aside

namespace State.Kept

variable {free : TrackId → Prop} {s0 s s' : State}

theorem refl (s : State) : s.Kept free s := ⟨fun _ _ => id, id, id⟩

/-- A step that leaves the trip units alone and moves every track as it may. -/
theorem moves (h : s0.Kept free s) (hu : s'.trips = s.trips) (hd : s.port.dev = .faulted → s'.port.dev = .faulted)
    (hm : ∀ k, MayMove (free k) (tripHolds s k = true) (s.track k).state (s'.track k).state) : s0.Kept free s' where
  safe k hf hs := (hm k).safe hf (h.safe k hf hs)
  hold hs u k hfired hmask := by
    have htrip : s'.trip u = s.trip u := by simp only [State.trip, hu]
    rw [htrip] at hfired hmask
    exact (hm k).rests (tripHolds_iff.mpr ⟨u, hfired, hmask⟩) (h.hold hs u k hfired hmask)
  dev hs := hd (h.dev hs)

theorem aside (h : s0.Kept free s) (ha : s.Aside s') : s0.Kept free s' :=
  h.moves ha.trips ha.dev fun k => mayMove_same (congrArg Track.state (ha.track k))

/-- An event of one track that moves it as it may. -/
theorem event {t : TrackId} (h : s0.Kept free s) (e : EventOf t s s')
    (hm : MayMove (free t) (tripHolds s t = true) (s.track t).state (s'.track t).state) : s0.Kept free s' := by
  obtain ⟨⟨hother, htrips⟩, -, hport, -⟩ := e
  refine h.moves htrips (fun hd => by rwa [hport]) fun k => ?_
  by_cases e : k = t
  · exact e ▸ hm
  · exact mayMove_same (congrArg Track.state (hother k e))

/-- Another context for a track. -/
theorem setTrack (t : TrackId) {c : Track} (h : s0.Kept free s)
    (hm : MayMove (free t) (tripHolds s t = true) (s.track t).state c.state) : s0.Kept free (s.setTrack t c) :=
  h.event (eventOf_setTrack t c s) (by rwa [State.track_setTrack_self])

/-- Another context in the same state. -/
theorem context (t : TrackId) {c : Track} (h : s0.Kept free s) (hs : c.state = (s.track t).state) :
    s0.Kept free (s.setTrack t c) := h.setTrack t (mayMove_same hs)

/-- A trip unit that does not become FIRED. -/
theorem setTrip (u : UnitId) {c : Trip} (h : s0.Kept free s) (hc : c.state ≠ .fired) : s0.Kept free (s.setTrip u c) where
  safe := h.safe
  hold hs v k hfired hmask := by
    rw [State.trip_setTrip] at hfired hmask
    split at hfired
    · exact absurd hfired hc
    · next e =>
      rw [if_neg e] at hmask
      exact h.hold hs v k hfired hmask
  dev := h.dev

end State.Kept

/-! ## Operations beside the tracks and the trip units -/

section Beside

variable (s : State)

theorem aside_handReport (q : QueueId) (r : Report) : s.Aside (handReport q r s) :=
  .same (handReport_tracks q r s) (handReport_trips q r s) (handReport_port q r s)

theorem aside_mapLines (f : LineId → Line → Line) : s.Aside (s.mapLines f) :=
  .same (s.mapLines_tracks f) (s.mapLines_trips f) (s.mapLines_port f)

theorem aside_claimBind (t : TrackId) (lanes : List LineId) (pattern : BitVec 16) : s.Aside (claimBind t lanes pattern s) :=
  aside_mapLines s _

theorem aside_claimRelease (t : TrackId) : s.Aside (claimRelease t s) := aside_mapLines s _

theorem aside_claimStatic (mask levels : BitVec 48) : s.Aside (claimStatic mask levels s) := aside_mapLines s _

theorem aside_sendMessage (v : VectorId) : s.Aside (s.sendMessage v) := by
  rw [sendMessage_eq]
  exact .same rfl rfl rfl

theorem aside_sendFor (q : QueueId) : s.Aside (sendFor q s) :=
  .trans (.same (s' := s.setRq q _) rfl rfl rfl) (aside_sendMessage _ _)

theorem aside_countEntry (q : QueueId) : s.Aside (countEntry q s) := by
  unfold countEntry
  dsimp only
  split
  · exact .refl s
  · split
    · exact .trans (.same (s' := s.setIrq q _) rfl rfl rfl) (aside_sendFor _ q)
    · exact .same rfl rfl rfl

theorem aside_fatalMessage : s.Aside (fatalMessage s) :=
  .trans (.same (s' := idleDelayTimers s) rfl rfl rfl) (aside_sendMessage _ _)

theorem aside_applyInterruptSettings (q : QueueId) (enable : Bool) (v : VectorId) (n : Nat) (d : BitVec 16) :
    s.Aside (applyInterruptSettings q enable v n d s) := by
  have set : ∀ m, s.Aside (s.setIrq q m) := fun _ => .same rfl rfl rfl
  unfold applyInterruptSettings
  dsimp only
  split
  · exact set _
  · exact set _
  · split
    · exact set _
    · exact (set _).trans (aside_sendFor _ q)
  · split
    · exact (set _).trans (aside_sendFor _ q)
    · split
      · exact set _
      · split <;> exact set _

theorem aside_queueEvent (b : Byte) (body : ReportBody) : s.Aside (queueEvent b body s) := aside_handReport s 0 _

theorem aside_moveRelease (q : QueueId) (r : Nat) : s.Aside (moveRelease q r s) := by
  unfold moveRelease
  dsimp only
  split <;> exact .same rfl rfl rfl

theorem aside_finishCommand (pos : Nat) : s.Aside (finishCommand pos s) := by
  unfold finishCommand
  dsimp only
  split
  · next h => exact ⟨fun _ => rfl, rfl, fun e => absurd (h.1.symm.trans e) (by decide)⟩
  · exact .same rfl rfl rfl

theorem aside_handAdminDone (h : InHand) (status : Status) (result : Option AdminResult) :
    s.Aside (handAdminDone h status result s) := by
  unfold handAdminDone
  dsimp only
  split
  · exact .refl s
  · split
    · exact .trans (.same (s' := postReport 0 _ s) rfl rfl rfl) (aside_finishCommand _ _)
    · exact .same rfl rfl rfl

theorem aside_postWaiting : s.Aside (postWaiting s) := by
  unfold postWaiting
  split
  · exact .refl s
  · next r _ =>
    have posted : s.Aside (postReport 0 r { s with waiting := none }) := .same rfl rfl rfl
    split
    · dsimp only
      split
      · exact posted.trans (aside_finishCommand _ _)
      all_goals exact posted
    · exact .refl s

theorem aside_releaseSlots (q : QueueId) (index : BitVec 16) : s.Aside (releaseSlots q index s) := by
  unfold releaseSlots
  dsimp only
  split
  · split
    · exact .refl s
    · split
      · exact (aside_moveRelease s q _).trans (aside_postWaiting _)
      · exact aside_moveRelease s q _
  · exact aside_queueEvent s _ _

theorem aside_endIfDrained : s.Aside s.endIfDrained := by
  unfold State.endIfDrained
  split
  · next h => exact ⟨fun _ => rfl, rfl, fun e => absurd (h.1.symm.trans e) (by decide)⟩
  · exact .refl s

theorem aside_closeIfDrained (q : QueueId) : s.Aside (closeIfDrained q s) := by
  have absent : s.Aside (makeAbsent q s) := .same rfl rfl rfl
  unfold closeIfDrained
  split
  · dsimp only
    split
    · split
      · exact absent.trans (aside_handAdminDone _ _ _ _)
      · exact absent
    all_goals exact absent
  · exact .refl s

theorem aside_settleReply (h : InHand) (reply : Reply) : s.Aside (settleReply h reply s) := by
  cases reply with
  | answer status result => exact aside_handAdminDone s h status result
  | write addr data => exact .same rfl rfl rfl
  | drain q result => exact .same rfl rfl rfl

theorem aside_afterOrder {α : Type} (xs : List α) : s.Aside (s.afterOrder xs) := by
  rw [afterOrder_eq]
  exact .same rfl rfl rfl

theorem aside_captureAcceptance (l : LineId) (level : Level) (edge : Time) (delay : BitVec 16) :
    s.Aside (captureAcceptance l level edge delay s) := by
  unfold captureAcceptance
  dsimp only
  split
  · exact .refl s
  · split
    · exact (aside_handReport s _ _).trans (.same rfl rfl rfl)
    · exact .same rfl rfl rfl

/-- A CTRL write with RESET 0 is ignored in FAULTED (R188). -/
theorem aside_writeRun (run : Bool) : s.Aside (writeRun run s) := by
  refine ⟨fun k => track_writeRun s k run, ?_, fun h => ?_⟩
  · unfold writeRun
    split
    · split
      · split <;> rfl
      · rfl
    · split
      · rfl
      · split
        · rfl
        · split <;> rfl
    · split <;> rfl
    · rfl
    · rfl
  · rw [writeRun, h]
    exact h

theorem aside_unmaskVector (v : VectorId) : s.Aside (unmaskVector v s) := by
  have link : ∀ x, s.Aside { s with link := x } := fun _ => .same rfl rfl rfl
  unfold unmaskVector
  dsimp only
  split
  · exact (link _).trans (aside_sendMessage _ v)
  · exact link _

theorem aside_abandonUncarried : s.Aside (abandonUncarried s) := by
  unfold abandonUncarried
  split
  · exact .refl s
  · exact .same rfl rfl rfl

theorem aside_tick : s.Aside (tick s) := by
  rw [tick_eq]
  exact .same rfl rfl rfl

end Beside

end Sys2Proof.Machine
end

section
/-!
SUPPORT. The premises of `State.Kept` through every operation: fires and acceptances, the commands of the admin engine, completions and
timed events. RESUME-TRACK and UNBIND-TRACK alone need a track that is free to leave SAFE (R128).
-/

namespace Sys2Proof

/-- The tracks that a command may take out of SAFE: the one it names, of RESUME-TRACK and UNBIND-TRACK (R128). -/
def Command.frees : Command → TrackId → Prop
  | .resumeTrack track _ _, k => track.toNat = k.val
  | .unbindTrack track, k => track.toNat = k.val
  | _, _ => False

end Sys2Proof

namespace Sys2Proof.Machine

/-- Past its checks START-TRACKS starts STOPPED tracks that no FIRED unit holds (R64); refused it changes nothing. -/
theorem startTracksEffect_cases (mask mode : Byte) (start : Time) (s : State) :
    (startTracksEffect mask mode start s).2 = s
      ∨ (∀ t ∈ maskTracks mask, (s.track t).state = .stopped ∧ tripHolds s t = false)
        ∧ ∃ moment, (startTracksEffect mask mode start s).2 = startEffect (maskTracks mask) moment s := by
  have refused : ∀ {status}, startTracksEffect mask mode start s = refuse status s → (startTracksEffect mask mode start s).2 = s :=
    fun e => congrArg Prod.snd e
  cases ha : startAt? mode with
  | none => exact .inl (refused (startTracksEffect_badParam (.inr ha)))
  | some isAt =>
    by_cases hm : mask = 0
    · exact .inl (refused (startTracksEffect_badParam (.inl hm)))
    by_cases hs : ∀ k : TrackId, mask.getLsbD k.val = true → startable s k = true
    swap
    · push Not at hs
      obtain ⟨k, hk, hn⟩ := hs
      exact .inl (refused (startTracksEffect_state hm ha hk hn))
    by_cases hh : ∀ k : TrackId, mask.getLsbD k.val = true → tripHolds s k = false
    swap
    · push Not at hh
      obtain ⟨k, hk, hn⟩ := hh
      exact .inl (refused (startTracksEffect_tripActive hm ha hs hk (by simpa using hn)))
    have he := startTracksEffect_eq (start := start) hm ha hs hh
    split at he
    · exact .inl (refused he)
    · exact .inr ⟨fun t ht => ⟨stopped_of_startable (hs t (mem_maskTracks.mp ht)) (hh t (mem_maskTracks.mp ht)),
        hh t (mem_maskTracks.mp ht)⟩, _, congrArg Prod.snd he⟩

/-- The states in which a track may be paused are active ones (R52). -/
theorem TrackState.active_of_paused {st : TrackState} {p : PausedFrom} (h : st.paused? = some p) : ¬st.rests := by
  rintro (rfl | rfl | rfl) <;> cases h

namespace State.Kept

variable {free : TrackId → Prop} {s0 s : State}

/-- An event of a track that is ARMED, running or PAUSED as it begins. -/
theorem active {t : TrackId} {s' : State} (h : s0.Kept free s) (ha : ¬(s.track t).state.rests) (e : EventOf t s s') :
    s0.Kept free s' := h.event e (mayMove_active ha)

/-! ## Fires and acceptances -/

theorem forceSafe (t : TrackId) (cause : SafeCause) (h : s0.Kept free s) : s0.Kept free (forceSafe t cause s) := by
  refine h.event ((eventOf_trackClosed s t).forceSafe cause (eventOf_refl t s)) ?_
  rw [track_forceSafe, if_pos rfl, Track.forced_state]
  split
  · next e => exact mayMove_same e.symm
  · exact mayMove_toSafe rfl

/-- A fire holds the tracks of its own mask by moving them into SAFE, and keeps what other FIRED units hold (R122). -/
theorem fireMoves (u : UnitId) (cause : FireCause) (h : s0.Kept free s) : s0.Kept free (fireMoves u cause s) where
  safe k hf hs := by
    rw [track_fireMoves]
    split
    · rfl
    · exact h.safe k hf hs
  hold hs v k hfired hmask := by
    rw [track_fireMoves]
    split
    · exact .inr (.inr rfl)
    · next hk =>
      by_cases e : v = u
      · subst e
        rw [trip_fireMoves, firedAlone, State.trip_setTrip_self] at hmask
        by_contra hn
        exact hk (mem_movable.mpr ⟨hmask, fun e => hn (.inl e), fun e => hn (.inr (.inr e))⟩)
      · rw [trip_fireMoves_ne u cause s e] at hfired hmask
        exact h.hold hs v k hfired hmask
  dev hs := by
    obtain ⟨-, hport, -⟩ := fireMoves_sameOutside u cause s
    rw [hport]
    exact h.dev hs

theorem fire (u : UnitId) (cause : FireCause) (edge : Option Time) (tag : BitVec 16) (h : s0.Kept free s) :
    s0.Kept free (fire u cause edge tag s) := by
  rw [fire_eq]
  exact (h.fireMoves u cause).aside (aside_handReport _ 0 _)

theorem waitAcceptance (t : TrackId) (l : LineId) (level : Level) (h : s0.Kept free s) :
    s0.Kept free (waitAcceptance t l level s) := by
  by_cases hs : (s.track t).state = .inputWait
  · exact h.active (t := t) (by rw [hs]; decide)
      ((eventOf_trackClosed s t).waitAcceptance l level (eventOf_refl t s))
  · rwa [waitAcceptance_elsewhere hs]

theorem consume (l : LineId) (level : Level) (edge : Time) (delay : BitVec 16) (x : Consumer) (h : s0.Kept free s) :
    s0.Kept free (consume l level edge delay s x) := by
  cases x with
  | capture => exact h.aside (aside_captureAcceptance s l level edge delay)
  | trip u =>
    change s0.Kept free (tripAcceptance u l level edge s)
    unfold tripAcceptance
    dsimp only
    split
    · exact h.fire u _ _ _
    · exact h
  | track t => exact h.waitAcceptance t l level

theorem setLine (l : LineId) (c : Line) (h : s0.Kept free s) : s0.Kept free (s.setLine l c) := h.aside (.same rfl rfl rfl)

theorem acceptance (l : LineId) (level : Level) (edge : Time) (delay : BitVec 16) (h : s0.Kept free s) :
    s0.Kept free (acceptance l level edge delay s) :=
  foldl_keeps (P := s0.Kept free) _ (fun _ x h => h.consume l level edge delay x) _ ((h.setLine l _).aside (aside_afterOrder _ _))

theorem samplePin (l : LineId) (level : Level) (h : s0.Kept free s) : s0.Kept free (samplePin l level s) := by
  unfold Machine.samplePin
  dsimp only
  have h1 : s0.Kept free { s with pins := s.pins.set l level } := h.aside (.same rfl rfl rfl)
  split
  · exact h1
  · have h2 := h1.aside (s' := markChanged l { s with pins := s.pins.set l level }) (.same rfl rfl rfl)
    unfold rawChanged
    dsimp only
    split
    · exact (h2.setLine l _).acceptance l _ _ _
    · split <;> exact h2.setLine l _

theorem expireWindow (l : LineId) (h : s0.Kept free s) : s0.Kept free (expireWindow l s) := by
  unfold Machine.expireWindow
  split
  · split
    · exact (h.setLine l _).acceptance l _ _ _
    · exact h
  · exact h

theorem applyWindow (l : LineId) (h : s0.Kept free s) : s0.Kept free (applyWindow l s) := by
  rw [applyWindow_branches]
  split
  · exact h.setLine l _
  · split
    · exact (h.setLine l _).acceptance l _ _ _
    · exact h.setLine l _

theorem applySetLine (l : LineId) (m : LineMode) (level : Level) (safe : SafeMode) (window : BitVec 16)
    (capture : CaptureMode) (rq : QueueId) (interval : Bool) (h : s0.Kept free s) :
    s0.Kept free (applySetLine l m level safe window capture rq interval s) := by
  unfold Machine.applySetLine
  dsimp only
  generalize (if (s.line l).mode = .off ∧ m ≠ .off then _ else _) = c
  have h2 := h.setLine l c
  generalize s.setLine l c = s2 at h2
  have h3 : s0.Kept free (if m ≠ .off ∧ (s.line l).window ≠ window then Machine.applyWindow l s2 else s2) := by
    split
    · exact h2.applyWindow l
    · exact h2
  generalize (if m ≠ .off ∧ (s.line l).window ≠ window then Machine.applyWindow l s2 else s2) = s3 at h3
  split
  · exact h3.setLine l _
  · exact h3

/-! ## The commands that the admin engine takes -/

theorem setLineEffect (p : SetLineParams) (h : s0.Kept free s) : s0.Kept free (setLineEffect p s).2 := by
  unfold Machine.setLineEffect
  split
  · exact h
  · split
    · dsimp only
      split
      · exact h
      · split
        · exact h
        · split
          · exact h
          · exact h.applySetLine _ _ _ _ _ _ _ _
    · exact h

theorem setStaticEffect (mask levels : BitVec 48) (h : s0.Kept free s) : s0.Kept free (setStaticEffect mask levels s).2 := by
  unfold Machine.setStaticEffect
  split
  · exact h
  · exact h.aside (aside_claimStatic s mask levels)

theorem snapshotEffect (buffer : Addr) (clear : Bool) (h : s0.Kept free s) : s0.Kept free (snapshotEffect buffer clear s).2 := by
  by_cases ha : 8 ∣ buffer.toNat
  · rw [snapshotEffect_aligned clear ha, glitchCleared_eq]
    exact h.aside (.same rfl rfl rfl)
  · rw [snapshotEffect_misaligned clear ha]
    exact h

/-- BIND-TRACK makes an UNBOUND track STOPPED (R61). -/
theorem bindTrackEffect (p : BindParams) (h : s0.Kept free s) : s0.Kept free (bindTrackEffect p s).2 := by
  unfold Machine.bindTrackEffect
  split
  · exact h
  · next t _ =>
    split
    · exact h
    · next hu =>
      split
      · exact h
      · split
        · exact h
        · split
          · exact h
          · have hm : MayMove (free t) (tripHolds s t = true) (s.track t).state .stopped :=
              mayMove_toRest (fun _ e => hu fun e' => absurd (e.symm.trans e') (by decide)) (.inr (.inl rfl))
            exact (h.setTrack t hm).aside (aside_claimBind _ t _ _)

/-- UNBIND-TRACK frees the track it names (R63). -/
theorem unbindTrackEffect (track : Byte) (hfree : ∀ k : TrackId, track.toNat = k.val → free k) (h : s0.Kept free s) :
    s0.Kept free (unbindTrackEffect track s).2 := by
  unfold Machine.unbindTrackEffect
  split
  · exact h
  · next t ht =>
    split
    · have hm : MayMove (free t) (tripHolds s t = true) (s.track t).state .unbound :=
        mayMove_toRest (absurd (hfree t (numberBelow_eq_some.mp ht))) (.inl rfl)
      exact (h.setTrack t hm).aside (aside_claimRelease _ t)
    · exact h

/-- Tracks that are ARMED start one after another, each left by the starts of the others (R66). -/
theorem startEach (start : Time) (ts : List TrackId) (hn : ts.Nodup) (ha : ∀ t ∈ ts, (s.track t).state = .armed)
    (h : s0.Kept free s) : s0.Kept free (ts.foldl (fun s' t => startTrack t start s') s) := by
  induction ts generalizing s with
  | nil => exact h
  | cons t ts ih =>
    obtain ⟨ht, hn⟩ := List.nodup_cons.mp hn
    have e := (eventOf_trackClosed s t).startTrack start (eventOf_refl t s)
    obtain ⟨⟨hother, -⟩, -⟩ := id e
    refine ih hn (fun k hk => ?_) (h.active (t := t) (by rw [ha t List.mem_cons_self]; decide) e)
    rw [hother k (ne_of_mem_of_not_mem hk ht)]
    exact ha k (List.mem_cons_of_mem t hk)

/-- STOPPED tracks that no FIRED unit holds may be armed and started (R65, R66, R127). -/
theorem startEffect {ts : List TrackId} (hn : ts.Nodup) (moment : Time)
    (hs : ∀ t ∈ ts, (s.track t).state = .stopped ∧ tripHolds s t = false) (h : s0.Kept free s) :
    s0.Kept free (startEffect ts moment s) := by
  have harm := armAll_eq ts moment s
  have h1 : s0.Kept free (armAll ts moment s) := by
    refine h.moves (by rw [harm]) (fun hd => by rwa [harm]) fun k => ?_
    rw [track_armAll hn]
    split
    · next hk => exact mayMove_unheld (fun _ => by rw [(hs k hk).1]; decide) (by simp [(hs k hk).2])
    · exact mayMove_same rfl
  unfold Machine.startEffect
  split
  · refine startEach moment _ ((freeOrder_perm _ ts).nodup_iff.mpr hn) (fun t ht => ?_) (h1.aside (aside_afterOrder _ ts))
    rw [track_afterOrder, track_armAll hn, if_pos ((mem_freeOrder _ ts).mp ht)]
    rfl
  · exact h1

theorem startTracksEffect (mask mode : Byte) (start : Time) (h : s0.Kept free s) :
    s0.Kept free (startTracksEffect mask mode start s).2 := by
  rcases startTracksEffect_cases mask mode start s with e | ⟨hs, moment, e⟩
  · rwa [e]
  · rw [e]
    exact h.startEffect (maskTracks_nodup mask) moment hs

/-- A stop leaves its track STOPPED (R69). -/
theorem stopEffect (t : TrackId) (lines : StopLines) (hs : (s.track t).state ≠ .safe) (h : s0.Kept free s) :
    s0.Kept free (stopEffect t lines s) := by
  obtain ⟨w, e⟩ := track_stopEffect t lines s
  refine h.event ((eventOf_trackClosed s t).stopEffect lines (eventOf_refl t s)) ?_
  rw [e]
  exact mayMove_toRest (fun _ => hs) (.inr (.inl rfl))

theorem stopTrackEffect (track timing lines : Byte) (h : s0.Kept free s) :
    s0.Kept free (stopTrackEffect track timing lines s).2 := by
  unfold Machine.stopTrackEffect
  split
  · exact h
  · next t _ =>
    dsimp only
    split
    · exact h
    · next hs =>
      split
      · split
        · exact h.context t rfl
        · exact h.stopEffect t _ fun e => hs (.inr e)
      · exact h

theorem pauseTrackEffect (track : Byte) (h : s0.Kept free s) : s0.Kept free (pauseTrackEffect track s).2 := by
  unfold Machine.pauseTrackEffect
  split
  · exact h
  · next t _ =>
    split
    · exact h
    · next hp => exact h.setTrack t (mayMove_active (TrackState.active_of_paused hp))

/-- RESUME-TRACK frees the track it names: FLUSH stops it, and CONTINUE goes on with a PAUSED track, or with a SAFE one that no FIRED
unit holds (R72). -/
theorem resumeTrackEffect (track action choice : Byte) (hfree : ∀ k : TrackId, track.toNat = k.val → free k)
    (h : s0.Kept free s) : s0.Kept free (resumeTrackEffect track action choice s).2 := by
  unfold Machine.resumeTrackEffect
  split
  · exact h
  · next t ht =>
    have hf : free t := hfree t (numberBelow_eq_some.mp ht)
    dsimp only
    split
    · exact h
    · next hs =>
      split
      · obtain ⟨w, e⟩ := track_flushEffect t s
        refine h.event ((eventOf_trackClosed s t).flushEffect (eventOf_refl t s)) ?_
        change MayMove _ _ _ ((Machine.flushEffect t s).track t).state
        rw [e]
        exact mayMove_toRest (absurd hf) (.inr (.inl rfl))
      · split
        · exact h
        · next hheld =>
          split
          · exact h
          · refine h.event ((eventOf_trackClosed s t).continueTrack _ (eventOf_refl t s)) ?_
            by_cases hsafe : (s.track t).state = .safe
            · exact mayMove_unheld (absurd hf) fun hh => hheld ⟨hsafe, hh⟩
            · have hp : (s.track t).state = .paused := by_contra fun hc => hs ⟨hc, hsafe⟩
              exact mayMove_active (by rw [hp]; decide)
      · exact h

theorem trackStatusEffect (track : Byte) (buffer : Addr) (h : s0.Kept free s) : s0.Kept free (trackStatusEffect track buffer s).2 := by
  unfold Machine.trackStatusEffect
  split
  · exact h
  · split <;> exact h

theorem setRq (q : QueueId) (c : ReportQueue) (h : s0.Kept free s) : s0.Kept free (s.setRq q c) := h.aside (.same rfl rfl rfl)

theorem createRqEffect (p : CreateRqParams) (h : s0.Kept free s) : s0.Kept free (createRqEffect p s).2 := by
  unfold Machine.createRqEffect
  split
  · exact h
  · split
    · exact h
    · split
      · split
        · exact h.setRq _ _
        · exact h
      · exact h

theorem deleteRqEffect (queue : Byte) (h : s0.Kept free s) : s0.Kept free (deleteRqEffect queue s).2 := by
  unfold Machine.deleteRqEffect
  split
  · exact h
  · dsimp only
    split
    · exact h
    · split
      · exact h
      · split <;> exact h.setRq _ _

theorem setRqInterruptEffect (p : RqInterruptParams) (h : s0.Kept free s) : s0.Kept free (setRqInterruptEffect p s).2 := by
  unfold Machine.setRqInterruptEffect
  split
  · exact h
  · split
    · exact h
    · split
      · split
        · exact h
        · exact h.aside (aside_applyInterruptSettings s _ _ _ _ _)
      · exact h

theorem setTripEffect (p : SetTripParams) (h : s0.Kept free s) : s0.Kept free (setTripEffect p s).2 := by
  unfold Machine.setTripEffect
  split
  · exact h
  · next u _ =>
    split
    · split
      · exact h
      · dsimp only
        generalize hs1 : s.setTrip u _ = s1
        have h1 : s0.Kept free s1 := by
          subst hs1
          exact h.setTrip u (by dsimp only; split <;> decide)
        split
        · exact h1.fire u .level none 0
        · exact h1
    · exact h

theorem clearTripEffect (unit : Byte) (h : s0.Kept free s) : s0.Kept free (clearTripEffect unit s).2 := by
  unfold Machine.clearTripEffect
  split
  · exact h
  · split
    · exact h
    · split
      · exact h
      · exact h.setTrip _ (by dsimp only; decide)

theorem fireTripEffect (id : BitVec 16) (unit : Byte) (h : s0.Kept free s) : s0.Kept free (fireTripEffect id unit s).2 := by
  unfold Machine.fireTripEffect
  split
  · exact h
  · split
    · exact h
    · exact h.fire _ _ _ _

theorem identifyEffect (buffer : Addr) (h : s0.Kept free s) : s0.Kept free (identifyEffect buffer s).2 := by
  unfold Machine.identifyEffect
  split <;> exact h

/-- A command frees from SAFE no track but the one that a RESUME-TRACK or an UNBIND-TRACK names (R128). -/
theorem commandEffect (id : BitVec 16) (c : Command) (hfree : ∀ k, c.frees k → free k) (h : s0.Kept free s) :
    s0.Kept free (commandEffect id c s).2 := by
  cases c with
  | identify buffer => exact h.identifyEffect buffer
  | setLine p => exact h.setLineEffect p
  | setStatic mask levels => exact h.setStaticEffect mask levels
  | snapshot buffer clear => exact h.snapshotEffect buffer clear
  | bindTrack p => exact h.bindTrackEffect p
  | unbindTrack track => exact h.unbindTrackEffect track hfree
  | startTracks mask mode start => exact h.startTracksEffect mask mode start
  | stopTrack track timing lines => exact h.stopTrackEffect track timing lines
  | pauseTrack track => exact h.pauseTrackEffect track
  | resumeTrack track action choice => exact h.resumeTrackEffect track action choice hfree
  | trackStatus track buffer => exact h.trackStatusEffect track buffer
  | createRq p => exact h.createRqEffect p
  | deleteRq queue => exact h.deleteRqEffect queue
  | setRqInterrupt p => exact h.setRqInterruptEffect p
  | setTrip p => exact h.setTripEffect p
  | clearTrip unit => exact h.clearTripEffect unit
  | fireTrip unit => exact h.fireTripEffect id unit
  | unknown opcode => exact h

theorem completeCommandRead (id : BitVec 16) (c : Command) (hfree : ∀ k, c.frees k → free k) (h : s0.Kept free s) :
    s0.Kept free (completeCommandRead id c s) := by
  unfold Machine.completeCommandRead
  split
  · exact h
  · have h1 : s0.Kept free (s.dropRead .admin) := h.aside (.same rfl rfl rfl)
    generalize s.dropRead .admin = s1 at h1
    dsimp only
    split
    · exact h1.aside (aside_endIfDrained s1)
    · split
      · exact (h1.commandEffect id c hfree).aside (aside_settleReply _ _ _)
      all_goals exact h1

/-! ## Reads and writes that complete -/

/-- An entry into FAULTED moves every bound track into SAFE (R132, R187). -/
theorem enterFaulted (cause : FaultCause) (h : s0.Kept free s) : s0.Kept free (enterFaulted cause s) := by
  unfold Machine.enterFaulted
  split
  · dsimp only
    have h1 : s0.Kept free { s with port := { s.port with dev := .faulted, faultCause := cause }, waiting := none } :=
      h.aside ⟨fun _ => rfl, rfl, fun _ => rfl⟩
    generalize { s with port := { s.port with dev := .faulted, faultCause := cause }, waiting := none } = s1 at h1
    have h2 : s0.Kept free ((List.finRange 8).foldl (fun s' t => Machine.forceSafe t .deviceFault s') s1) :=
      foldl_keeps (P := s0.Kept free) _ (fun _ t h => h.forceSafe t _) _ h1
    generalize (List.finRange 8).foldl (fun s' t => Machine.forceSafe t .deviceFault s') s1 = s2 at h2
    have h3 : s0.Kept free (s2.setEngine .idleWait) := h2.aside (.same rfl rfl rfl)
    exact h3.aside (aside_fatalMessage _)
  · exact h

theorem completeStepRead (t : TrackId) (data : Vector StepRecord 8) (h : s0.Kept free s) :
    s0.Kept free (completeStepRead t data s) := by
  unfold Machine.completeStepRead
  split
  · exact h
  · have h1 : s0.Kept free (s.dropRead (.track t)) := h.aside (.same rfl rfl rfl)
    generalize s.dropRead (.track t) = s1 at h1
    dsimp only
    split
    · exact h1.aside (aside_endIfDrained s1)
    · split
      · exact h1
      · next r _ =>
        split
        · exact h1.context t rfl
        · have h2 : s0.Kept free (s1.modTrack t fun c => c.join r data) := h1.context t rfl
          split
          · next he =>
            have C := eventOf_trackClosed (s1.modTrack t fun c => c.join r data) t
            exact h2.active (by rw [he]; decide) (C.takeNext (C.idle (eventOf_refl t _)))
          · exact h2

theorem failStepRead (t : TrackId) (h : s0.Kept free s) : s0.Kept free (failStepRead t s) := by
  unfold Machine.failStepRead
  split
  · exact h
  · have h1 : s0.Kept free (s.dropRead (.track t)) := h.aside (.same rfl rfl rfl)
    generalize s.dropRead (.track t) = s1 at h1
    dsimp only
    split
    · exact h1.aside (aside_endIfDrained s1)
    · split
      · exact h1
      · have h2 : s0.Kept free (s1.modTrack t fun c => { c with read := none }) := h1.context t rfl
        split
        · exact h2
        · exact h2.forceSafe t _

theorem failCommandRead (h : s0.Kept free s) : s0.Kept free (failCommandRead s) := by
  unfold Machine.failCommandRead
  split
  · exact h
  · have h1 : s0.Kept free (s.dropRead .admin) := h.aside (.same rfl rfl rfl)
    generalize s.dropRead .admin = s1 at h1
    dsimp only
    split
    · exact h1.aside (aside_endIfDrained s1)
    · split
      · exact h1.enterFaulted _
      all_goals exact h1

theorem timeoutRead (who : Requester) (h : s0.Kept free s) : s0.Kept free (timeoutRead who s) := by
  unfold Machine.timeoutRead
  split
  · exact h
  · split
    · cases who with
      | track t => exact h.failStepRead t
      | admin => exact h.failCommandRead
    · exact h

theorem writeRetireWord (t : TrackId) (h : s0.Kept free s) : s0.Kept free (writeRetireWord t s) :=
  (h.context t (c := { s.track t with retireWrite := some ⟨(s.track t).retire, false⟩ }) rfl).aside (.same rfl rfl rfl)

theorem completeRetireWord (t : TrackId) (error : Bool) (h : s0.Kept free s) : s0.Kept free (completeRetireWord t error s) := by
  unfold Machine.completeRetireWord
  split
  · exact h
  · have h1 : s0.Kept free (s.dropWrite (WritePurpose.isRetireWordOf t)) := h.aside (.same rfl rfl rfl)
    generalize s.dropWrite (WritePurpose.isRetireWordOf t) = s1 at h1
    have h2 : s0.Kept free (s1.modTrack t fun c => { c with retireWrite := none }) := h1.context t rfl
    dsimp only
    split
    · exact h1.aside (aside_endIfDrained s1)
    · split
      · exact h1
      · split
        · unfold afterEarlierWrite
          dsimp only
          split
          · exact h2.writeRetireWord t
          · exact h2
        · split
          · exact h2.forceSafe t _
          · split
            · exact h2.writeRetireWord t
            · exact h2

theorem completeEntry (q : QueueId) (h : s0.Kept free s) : s0.Kept free (completeEntry q s) := by
  unfold Machine.completeEntry
  split
  · exact h
  · have h1 : s0.Kept free (s.dropWrite (WritePurpose.isEntryOf q)) := h.aside (.same rfl rfl rfl)
    generalize s.dropWrite (WritePurpose.isEntryOf q) = s1 at h1
    have h2 : s0.Kept free (lowerInFlight q s1) := h1.setRq q _
    dsimp only
    split
    · exact h1.aside (aside_endIfDrained s1)
    · refine State.Kept.aside ?_ (aside_closeIfDrained _ q)
      split
      · exact h2.aside (aside_countEntry _ q)
      · exact h2

theorem failEntry (q : QueueId) (h : s0.Kept free s) : s0.Kept free (failEntry q s) := by
  unfold Machine.failEntry
  split
  · exact h
  · have h1 : s0.Kept free (s.dropWrite (WritePurpose.isEntryOf q)) := h.aside (.same rfl rfl rfl)
    generalize s.dropWrite (WritePurpose.isEntryOf q) = s1 at h1
    have h2 : s0.Kept free (lowerInFlight q s1) := h1.setRq q _
    dsimp only
    split
    · exact h1.aside (aside_endIfDrained s1)
    · generalize lowerInFlight q s1 = s2 at h2
      split
      · exact h2.aside (aside_closeIfDrained s2 q)
      · split
        · exact h2.enterFaulted _
        · split
          · exact ((h2.setRq q _).aside (aside_queueEvent _ _ _)).aside (aside_closeIfDrained _ q)
          · exact h2.aside (aside_closeIfDrained s2 q)

theorem completeBuffer (error : Bool) (h : s0.Kept free s) : s0.Kept free (completeBuffer error s) := by
  unfold Machine.completeBuffer
  split
  · exact h
  · have h1 : s0.Kept free (s.dropWrite WritePurpose.isBuffer) := h.aside (.same rfl rfl rfl)
    generalize s.dropWrite WritePurpose.isBuffer = s1 at h1
    dsimp only
    split
    · exact h1.aside (aside_endIfDrained s1)
    · split
      · exact h1.aside (aside_handAdminDone s1 _ _ _)
      all_goals exact h1

/-! ## The timed events of a track -/

theorem reachStart (t : TrackId) (h : s0.Kept free s) : s0.Kept free (reachStart t s) := by
  unfold Machine.reachStart
  split
  · next hs _ =>
    split
    · exact h.active (by rw [hs]; decide) ((eventOf_trackClosed s t).startTrack _ (eventOf_refl t s))
    · exact h
  · exact h

theorem expireDue (t : TrackId) (h : s0.Kept free s) : s0.Kept free (expireDue t s) := by
  unfold Machine.expireDue
  split
  · next hs _ =>
    split
    · exact h.active (by rw [hs]; decide) ((eventOf_trackClosed s t).dueExpired _ (eventOf_refl t s))
    · exact h
  · exact h

theorem expireTimeout (t : TrackId) (h : s0.Kept free s) : s0.Kept free (expireTimeout t s) := by
  unfold Machine.expireTimeout
  split
  · next hs _ =>
    split
    · exact h.active (by rw [hs]; decide) ((eventOf_trackClosed s t).timeoutExpired _ (eventOf_refl t s))
    · exact h
  · exact h

theorem expireHold (t : TrackId) (h : s0.Kept free s) : s0.Kept free (expireHold t s) := by
  unfold Machine.expireHold
  split
  · next hs =>
    exact h.active (by rw [hs.1]; decide) ((eventOf_trackClosed s t).enterSafe _ _ (eventOf_refl t s))
  · exact h

/-! ## The host and the fetch unit -/

theorem issueGrant (h : s0.Kept free s) : s0.Kept free (issueGrant s) := by
  unfold Machine.issueGrant
  split
  · exact h
  · split
    · next t _ =>
      exact (h.context t (c := { s.track t with read := some ⟨(s.track t).fetch, (s.track t).readLength, false⟩ }) rfl).aside
        (.same rfl rfl rfl)
    · exact h.aside (.same rfl rfl rfl)
    · exact h

theorem writePost (selector : BitVec 4) (index : BitVec 16) (h : s0.Kept free s) : s0.Kept free (writePost selector index s) := by
  have refused := h.aside (aside_queueEvent s (selector.setWidth 8) (.postRefused index))
  unfold Machine.writePost
  dsimp only
  split
  · exact h
  · split
    · split
      · exact h.aside (.same rfl rfl rfl)
      · exact refused
    · split
      · split
        · exact h.context _ rfl
        · exact refused
      · exact refused

theorem writeRlse (queue : BitVec 4) (index : BitVec 16) (h : s0.Kept free s) : s0.Kept free (writeRlse queue index s) := by
  unfold Machine.writeRlse
  split
  · exact h
  · split
    · exact h.aside (aside_releaseSlots s _ _)
    · exact h.aside (aside_queueEvent s _ _)

/-- A register write that is no soft reset. -/
theorem writeRegister (offset : BitVec 32) (width : AccessWidth) (value : BitVec 32)
    (hr : ¬(offset = 0x04 ∧ width = .word ∧ value.getLsbD 1 = true)) (h : s0.Kept free s) :
    s0.Kept free (writeRegister offset width value s) := by
  unfold Machine.writeRegister
  split
  · exact h
  · exact h
  · split
    · next ho =>
      split
      · exact h
      · split
        · next hv => exact absurd ⟨ho, rfl, hv⟩ hr
        · exact h.aside (aside_writeRun s _)
    · split
      · exact h.writePost _ _
      · split
        · exact h.writeRlse _ _
        · split
          · next hd => exact h.aside ⟨fun _ => rfl, rfl, fun e => absurd (hd.symm.trans e) (by decide)⟩
          · exact h

end State.Kept

end Sys2Proof.Machine
end

section
/-!
CERTIFICATE. A FIRED unit holds its tracks through every step (R122), and the only ways out of SAFE and of FAULTED (R128, R188).
-/

namespace Sys2Proof

/-- The tracks that a row may take out of SAFE, a reset apart: those of RESUME-TRACK and UNBIND-TRACK as a row or as a record (R128). -/
def Instr.frees : Instr → TrackId → Prop
  | .resumeTrack _ track _ _, k => track.toNat = k.val
  | .unbindTrack _ track, k => track.toNat = k.val
  | .adminReadCompletion record, k => (decodeCommand record).2.frees k
  | _, _ => False

/-- The row is a reset or a power-on: a port reset, a soft reset by its own row or by the register write that spells it (R189). -/
def Instr.resets (c : Instr) : Prop :=
  c = .powerOn ∨ c = .portReset ∨ (∃ run, c = .ctrlReset run)
    ∨ ∃ value : BitVec 32, c = .registerWrite 0x04 .word value ∧ value.getLsbD 1 = true

end Sys2Proof

namespace Sys2Proof.Machine

/-! ## Resets -/

theorem State.Aside.tripsHold {s s' : State} (ha : s.Aside s') (h : s.tripsHold) : s'.tripsHold :=
  ((State.Kept.refl (free := fun _ => False) s).aside ha).hold h

/-- Without a FIRED unit there is nothing to hold. -/
theorem tripsHold_of_unfired {s : State} (h : ∀ u, (s.trip u).state ≠ .fired) : s.tripsHold := fun u _ hf => absurd hf (h u)

theorem tripsHold_powerOn (s : State) : (powerOn s).tripsHold :=
  tripsHold_of_unfired fun u => by rw [trip_powerOn]; decide

theorem tripsHold_resetBlocks (s : State) : (resetBlocks s).tripsHold := by
  refine tripsHold_of_unfired fun u => ?_
  rw [resetBlocks_eq]
  simp [State.trip, Trip.afterReset]

theorem tripsHold_softReset {s : State} (h : s.tripsHold) : (softReset s).tripsHold := by
  unfold softReset
  split
  · exact h
  · exact ((aside_abandonUncarried _).trans (aside_endIfDrained _)).tripsHold (tripsHold_resetBlocks s)

theorem aside_abandonAll (s : State) : s.Aside (abandonAll s) := .same rfl rfl rfl

theorem tripsHold_hardReset {s : State} (h : s.tripsHold) : (hardReset s).tripsHold := by
  unfold hardReset
  split
  · have ht : s.Aside { s with port := { s.port with timh := 0 } } := ⟨fun _ => rfl, rfl, id⟩
    exact ((ht.trans (aside_abandonAll _)).trans (aside_endIfDrained _)).tripsHold h
  · exact ((aside_abandonAll _).trans (aside_endIfDrained _)).tripsHold (tripsHold_resetBlocks s)

/-- A reset leaves every unit DISARMED, or while RESETTING lasts leaves units and tracks alone. -/
theorem tripsHold_reset {c : Instr} {s t : State} (hc : c.resets) (h : s.tripsHold) (hx : exec c s = .next t) : t.tripsHold := by
  rcases hc with rfl | rfl | ⟨run, rfl⟩ | ⟨value, rfl, hv⟩
  · exact Host.Outcome.next.inj hx ▸ tripsHold_powerOn s
  · exact Host.Outcome.next.inj hx ▸ tripsHold_hardReset h
  · exact Host.Outcome.next.inj hx ▸ tripsHold_softReset h
  · rw [← Host.Outcome.next.inj hx, writeRegister, if_pos rfl, if_pos hv]
    split
    · exact h
    · exact tripsHold_softReset h

/-! ## Every other command -/

/-- A command that is no reset keeps SAFE tracks SAFE but those it frees, the tracks of FIRED units at rest, and a FAULTED device
FAULTED. -/
theorem State.Kept.exec {c : Instr} {s t : State} (hc : ¬c.resets) (hx : exec c s = .next t) : s.Kept c.frees t := by
  have keeps : ∀ {free}, s.Kept free s := State.Kept.refl s
  have takes : ∀ {free} id (x : Command), (∀ k, x.frees k → free k) → s.Kept free (Machine.completeCommandRead id x s) :=
    fun id x hfree => keeps.completeCommandRead id x hfree
  cases c <;> (have e := Host.Outcome.next.inj hx; subst e)
  case powerOn => exact absurd (.inl rfl) hc
  case portReset => exact absurd (.inr (.inl rfl)) hc
  case ctrlReset run => exact absurd (.inr (.inr (.inl ⟨run, rfl⟩))) hc
  case ctrlRun run => exact keeps.aside (aside_writeRun s run)
  case post selector index => exact keeps.writePost selector index
  case rlse queue index => exact keeps.writeRlse queue index
  case timlRead => exact keeps.aside ⟨fun _ => rfl, rfl, id⟩
  case registerWrite offset width value =>
    refine keeps.writeRegister offset width value fun h => hc ?_
    obtain ⟨rfl, rfl, hv⟩ := h
    exact .inr (.inr (.inr ⟨value, rfl, hv⟩))
  case readIssue => exact keeps.issueGrant
  case stepReadCompletion k data => exact keeps.completeStepRead k data
  case stepReadError k => exact keeps.failStepRead k
  case readTimeout who => exact keeps.timeoutRead who
  case adminReadCompletion record => exact takes _ _ fun _ h => h
  case unknownOpcode id opcode =>
    split
    · exact keeps
    · exact takes id _ fun _ h => h
  case adminReadError => exact keeps.failCommandRead
  case bufferWriteCompletion error => exact keeps.completeBuffer error
  case startTimeReached k => exact keeps.reachStart k
  case dueTimerExpiry k => exact keeps.expireDue k
  case timeoutTimerExpiry k => exact keeps.expireTimeout k
  case holdTimerExpiry k => exact keeps.expireHold k
  case retireWordWriteDone k => exact keeps.completeRetireWord k false
  case retireWordWriteError k => exact keeps.completeRetireWord k true
  case rawChange l level => exact keeps.samplePin l level
  case windowExpiry l => exact keeps.expireWindow l
  case entryWriteCompletion q => exact keeps.completeEntry q
  case entryWriteError q => exact keeps.failEntry q
  case delayTimerExpiry q =>
    split
    · exact keeps.aside (aside_sendFor s q)
    · exact keeps
  case vectorUnmask v => exact keeps.aside (aside_unmaskVector s v)
  case vectorMask v => exact keeps.aside (.same rfl rfl rfl)
  all_goals exact takes _ _ fun _ h => h

/-- Settles O57: a reset leaves no unit FIRED (`tripsHold_reset`), every other command keeps the tracks of the FIRED ones at rest
(`State.Kept.exec`), and a tick touches neither. -/
theorem stepKeepsTripHold : Obligations.StepKeepsTripHold := by
  intro s t h hx
  unfold step at hx
  split at hx
  · next c rest _ =>
    have h1 : State.tripsHold { s with pending := rest } := h
    by_cases hc : c.resets
    · exact tripsHold_reset hc h1 hx
    · exact (State.Kept.exec hc hx).hold h1
  · exact Host.Outcome.next.inj hx ▸ (aside_tick s).tripsHold h

/-! ## The ways out -/

/-- The record of a command that frees a track spells RESUME-TRACK or UNBIND-TRACK (R194). -/
theorem opcode_of_frees {record : CommandRecord} {k : TrackId} (h : (decodeCommand record).2.frees k) :
    record[0] = 0x0A ∨ record[0] = 0x06 := by
  unfold decodeCommand decodeParams at h
  dsimp only at h
  split at h
  case h_6 e => exact .inr (BitVec.eq_of_toNat_eq e)
  case h_10 e => exact .inl (BitVec.eq_of_toNat_eq e)
  all_goals exact h.elim

/-- Settles O60: `State.Kept.exec`, from the state in which the command comes. -/
theorem waysOutOfSafeAndFaulted : Obligations.WaysOutOfSafeAndFaulted := by
  intro c s t hx resets frees
  by_cases hc : c.resets
  · exact ⟨fun _ _ _ => .inl hc, fun _ _ => hc⟩
  have kept := State.Kept.exec hc hx
  have hfrees : ∀ k, c.frees k → frees := fun k hk => by
    cases c
    case resumeTrack id track action choice => exact .inl ⟨id, track, action, choice, rfl⟩
    case unbindTrack id track => exact .inr (.inl ⟨id, track, rfl⟩)
    case adminReadCompletion record => exact .inr (.inr ⟨record, rfl, opcode_of_frees hk⟩)
    all_goals exact hk.elim
  refine ⟨fun k hs ht => .inr ?_, fun hd ht => absurd (kept.dev hd) ht⟩
  exact by_contra fun hn => ht (kept.safe k (fun hk => hn (hfrees k hk)) hs)

end Sys2Proof.Machine
end

section
/-!
CERTIFICATE. SET-TRIP (R118, R119), a fire and what provokes it (R120 to R124), FIRE-TRIP and CLEAR-TRIP (R121, R125).
-/

namespace Sys2Proof.Machine

/-! ## Operands and conditions -/

theorem enable_none {b : Byte} (h : 1 < b.toNat) : enable? b = none := by
  unfold enable?
  generalize b.toNat = n at h
  rcases n with _ | _ | n <;> simp_all

theorem enable_some {b : Byte} (h : ¬1 < b.toNat) : ∃ enable, enable? b = some enable := by
  have hb : b = 0 ∨ b = 1 := by bv_omega
  rcases hb with rfl | rfl <;> exact ⟨_, rfl⟩

theorem tripCond_none {b : Byte} (h : b = 0 ∨ 4 < b.toNat) : tripCond? b = none := by
  rcases h with rfl | h
  · rfl
  · unfold tripCond?
    generalize b.toNat = n at h
    rcases n with _ | _ | _ | _ | _ | n <;> simp_all

theorem tripCond_some {b : Byte} (h0 : b ≠ 0) (h : ¬4 < b.toNat) : ∃ cond, tripCond? b = some cond := by
  have hb : b = 1 ∨ b = 2 ∨ b = 3 ∨ b = 4 := by bv_omega
  rcases hb with rfl | rfl | rfl | rfl <;> exact ⟨_, rfl⟩

/-- A level condition that holds names the accepted level of the source line (R119, R125). -/
theorem levelHolds_iff {s : State} {u : UnitId} : levelHolds s u = true ↔
    ((s.trip u).condition = .high ∧ (s.line (s.trip u).source).accepted = .high)
      ∨ ((s.trip u).condition = .low ∧ (s.line (s.trip u).source).accepted = .low) := by
  unfold levelHolds
  cases (s.trip u).condition <;> simp [TripCond.namedLevel, eq_comm]

/-- An acceptance meets the conditions that name its level or the edge to it (R120). -/
theorem TripCond.metBy_iff {c : TripCond} {level : Level} : c.metBy level = true ↔
    (level = .high ∧ (c = .rise ∨ c = .high)) ∨ (level = .low ∧ (c = .fall ∨ c = .low)) := by
  cases c <;> simp [TripCond.metBy]

/-! ## SET-TRIP (R118, R119) -/

/-- The state in which SET-TRIP has stored its settings. -/
def tripStored (u : UnitId) (source : LineId) (cond : TripCond) (mask : Byte) (st : TripState) (s : State) : State :=
  s.setTrip u { state := st, source := source, condition := cond, mask := mask, lastFire := (s.trip u).lastFire }

/-- The level condition of the stored settings, on the line that they name. -/
theorem levelHolds_tripStored {u : UnitId} {source : LineId} {cond : TripCond} {mask : Byte} {st : TripState} {s : State} :
    levelHolds (tripStored u source cond mask st s) u = true ↔
      (cond = .high ∧ (s.line source).accepted = .high) ∨ (cond = .low ∧ (s.line source).accepted = .low) := by
  rw [levelHolds_iff, tripStored, State.trip_setTrip_self, State.setTrip_line]

section SetTrip

variable {p : SetTripParams} {u : UnitId} {source : LineId} {cond : TripCond} {enable : Bool} {s : State}

theorem setTripEffect_badTarget (h : 2 ≤ p.unit.toNat) : setTripEffect p s = refuse .badTarget s := by
  rw [setTripEffect, numberBelow_eq_none.mpr h]

variable (hu : p.unit.toNat = u.val)

include hu

theorem setTripEffect_badParam (h : numberBelow 48 p.source = none ∨ tripCond? p.condition = none ∨ enable? p.enable = none) :
    setTripEffect p s = refuse .badParam s := by
  rw [setTripEffect, numberBelow_eq_some.mpr hu]
  dsimp only
  split
  · next hs hc he => simp [hs, hc, he] at h
  · rfl

variable (hs : p.source.toNat = source.val) (hc : tripCond? p.condition = some cond) (he : enable? p.enable = some enable)

include hs hc he

theorem setTripEffect_busy (hf : (s.trip u).state = .fired) : setTripEffect p s = refuse .busy s := by
  rw [setTripEffect, numberBelow_eq_some.mpr hu, numberBelow_eq_some.mpr hs, hc, he]
  exact if_pos hf

/-- An accepted SET-TRIP stores its settings, and an enabled one fires at once when its level holds. -/
theorem setTripEffect_accepted (hf : (s.trip u).state ≠ .fired) :
    setTripEffect p s =
      if enable = true ∧ levelHolds (tripStored u source cond p.mask (if enable then .armed else .disarmed) s) u = true then
        accept (fire u .level none 0 (tripStored u source cond p.mask (if enable then .armed else .disarmed) s))
      else accept (tripStored u source cond p.mask (if enable then .armed else .disarmed) s) := by
  rw [setTripEffect, numberBelow_eq_some.mpr hu, numberBelow_eq_some.mpr hs, hc, he]
  exact if_neg hf

end SetTrip

/-- Settles O50: `setTripEffect_accepted` by the enable and the level, and the refusals by their operands. -/
theorem setTripResult : Obligations.SetTripResult := by
  refine ⟨?accepted, ?refused⟩
  case accepted =>
    intro id p u source cond pos s ht hu hs hc hf h stored holds
    have hholds : levelHolds (tripStored u source cond p.mask .armed s.taken) u = true ↔ holds := levelHolds_tripStored
    have he : ∀ {enable}, enable? p.enable = some enable → _ := fun he =>
      setTripEffect_accepted (s := s.taken) hu hs hc he hf
    refine ⟨fun h0 => completes_answer rfl ht ?_, fun h1 hn => completes_answer rfl ht ?_, fun h1 hh => completes_answer rfl ht ?_⟩
    · exact (he (enable := false) (by rw [h0]; rfl)).trans (if_neg (by simp))
    · exact (he (enable := true) (by rw [h1]; rfl)).trans (if_neg fun h => hn (hholds.mp h.2))
    · exact (he (enable := true) (by rw [h1]; rfl)).trans (if_pos ⟨rfl, hholds.mpr hh⟩)
  case refused =>
    intro id p pos s ht refused bad
    have hbad : bad → numberBelow 48 p.source = none ∨ tripCond? p.condition = none ∨ enable? p.enable = none := fun h => by
      rcases h with h | h | h | h
      · exact .inl (numberBelow_eq_none.mpr h)
      · exact .inr (.inl (tripCond_none (.inl h)))
      · exact .inr (.inl (tripCond_none (.inr h)))
      · exact .inr (.inr (enable_none h))
    refine ⟨fun h => completes_answer rfl ht (setTripEffect_badTarget h), fun u hu =>
      ⟨fun h => completes_answer rfl ht (setTripEffect_badParam hu (hbad h)), fun hgood hf => completes_answer rfl ht ?_⟩⟩
    simp only [bad, not_or] at hgood
    obtain ⟨hs, hc0, hc, he⟩ := hgood
    obtain ⟨cond, hc⟩ := tripCond_some hc0 hc
    obtain ⟨enable, he⟩ := enable_some he
    exact setTripEffect_busy (source := ⟨p.source.toNat, Nat.lt_of_not_le hs⟩) hu rfl hc he hf

/-! ## FIRE-TRIP and CLEAR-TRIP (R121, R125) -/

section Commands

variable {unit : Byte} {u : UnitId} {id : BitVec 16} {s : State}

theorem fireTripEffect_badTarget (h : 2 ≤ unit.toNat) : fireTripEffect id unit s = refuse .badTarget s := by
  rw [fireTripEffect, numberBelow_eq_none.mpr h]

theorem clearTripEffect_badTarget (h : 2 ≤ unit.toNat) : clearTripEffect unit s = refuse .badTarget s := by
  rw [clearTripEffect, numberBelow_eq_none.mpr h]

variable (hu : unit.toNat = u.val)

include hu

theorem fireTripEffect_eq : fireTripEffect id unit s =
    if (s.trip u).state = .fired then refuse .state s else accept (fire u .host none id s) := by
  rw [fireTripEffect, numberBelow_eq_some.mpr hu]

theorem clearTripEffect_eq : clearTripEffect unit s =
    if (s.trip u).state ≠ .fired then refuse .state s
    else if levelHolds s u = true then refuse .tripActive s
    else (.answer .ok ((s.trip u).lastFire.map .fire), s.setTrip u { s.trip u with state := .armed }) := by
  rw [clearTripEffect, numberBelow_eq_some.mpr hu]

end Commands

/-! ## The tracks of a fire -/

/-- Each track of a fire enters SAFE, started or not as its state was before the fire (R122, R123, R128). -/
theorem fireMoves_eq_enterSafe (u : UnitId) (cause : FireCause) (s : State) : ∃ n, fireMoves u cause s =
    (fireOrder u s).foldl (fun s' k => enterSafe k (.trip u) (s.track k).safeOrigin s') { firedAlone u cause s with freeIndex := n } := by
  rw [fireMoves, afterOrder_eq]
  exact ⟨_, forceAll_eq_enterSafe _ _ (fireOrder_nodup u s) fun k hk =>
    canEnterSafe_iff.mpr (mem_movable.mp ((mem_fireOrder u s).mp hk)).2⟩

theorem movedMask_nil {s : State} {mask : BitVec 8} (h : movable s mask = []) : movedMask s mask = 0 := by
  rw [movedMask, h]
  decide

theorem movedMask_single {s : State} {mask : BitVec 8} {k : TrackId} (h : movable s mask = [k]) :
    movedMask s mask = ((1 <<< k.val : Nat) : BitVec 8) := by
  rw [movedMask, h]
  clear h
  revert k
  decide

/-- Fewer than two tracks need no order and take no free choice (log entry 4). -/
theorem fireMoves_short {u : UnitId} {s : State} (cause : FireCause) (h : (movable s (s.trip u).mask).length ≤ 1) :
    fireMoves u cause s = forceAll (.trip u) (movable s (s.trip u).mask) (firedAlone u cause s) := by
  rw [fireMoves, fireOrder, freeOrder_short s h, afterOrder_short _ h]

theorem movable_nil {s : State} {mask : BitVec 8}
    (h : ∀ k : TrackId, ¬(mask.getLsbD k.val = true ∧ (s.track k).state ≠ .unbound ∧ (s.track k).state ≠ .safe)) :
    movable s mask = [] := List.eq_nil_iff_forall_not_mem.mpr fun k hk => h k (mem_movable.mp hk)

theorem movable_single {s : State} {mask : BitVec 8} {k : TrackId}
    (hk : mask.getLsbD k.val = true ∧ (s.track k).state ≠ .unbound ∧ (s.track k).state ≠ .safe)
    (h : ∀ j : TrackId, mask.getLsbD j.val = true ∧ (s.track j).state ≠ .unbound ∧ (s.track j).state ≠ .safe → j = k) :
    movable s mask = [k] := by
  have hp : (movable s mask).Perm [k] := (List.perm_ext_iff_of_nodup (movable_nodup s mask) (List.nodup_singleton k)).mpr
    fun j => ⟨fun hj => List.mem_singleton.mpr (h j (mem_movable.mp hj)), fun hj => List.mem_singleton.mp hj ▸ mem_movable.mpr hk⟩
  exact List.perm_singleton.mp hp

/-- A fire that moves no track. -/
theorem fire_none {u : UnitId} {cause : FireCause} {edge : Option Time} {tag : BitVec 16} {s : State}
    (h : movable s (s.trip u).mask = []) : fire u cause edge tag s =
      handReport 0 { source := BitVec.ofNat 8 u.val, tag := tag, time := s.time, body := .trip cause 0 edge }
        (s.setTrip u { s.trip u with state := .fired, lastFire := some { cause := cause, time := s.time, moved := 0 } }) := by
  rw [fire_eq, fireMoves_short cause (by rw [h]; simp), firedAlone, movedMask_nil h, h]
  rfl

/-- A fire that moves one track. -/
theorem fire_single {u : UnitId} {cause : FireCause} {edge : Option Time} {tag : BitVec 16} {s : State} {k : TrackId}
    (h : movable s (s.trip u).mask = [k]) : fire u cause edge tag s =
      handReport 0 { source := BitVec.ofNat 8 u.val, tag := tag, time := s.time
                     body := .trip cause ((1 <<< k.val : Nat) : BitVec 8) edge }
        (enterSafe k (.trip u) (s.track k).safeOrigin
          (s.setTrip u { s.trip u with
            state := .fired, lastFire := some { cause := cause, time := s.time, moved := ((1 <<< k.val : Nat) : BitVec 8) } })) := by
  have hk : (s.track k).canEnterSafe = true :=
    canEnterSafe_iff.mpr (mem_movable.mp (h ▸ List.mem_singleton_self k)).2
  rw [fire_eq, fireMoves_short cause (by rw [h]; simp), firedAlone, movedMask_single h, h,
    forceAll_eq_enterSafe _ _ (List.nodup_singleton k) fun j hj => List.mem_singleton.mp hj ▸ hk]
  rfl

/-- Settles O51: `fire_eq` with the parts of `fireMoves`, the acceptance by the unit's state and condition, and the two commands by
their checks. -/
theorem fireAndClearTrip : Obligations.FireAndClearTrip := by
  refine ⟨?fire, ?acceptance, ?commands, fun id unit pos s ht h =>
    ⟨completes_answer rfl ht (fireTripEffect_badTarget h), completes_answer rfl ht (clearTripEffect_badTarget h)⟩⟩
  case fire =>
    intro u cause edge tag s c moves origin
    obtain ⟨htime, hport, hadmin, -⟩ := fireMoves_sameOutside u cause s
    have hmoves : ∀ {k}, k ∈ movable s c.mask ↔ moves k := mem_movable
    obtain ⟨n, hall⟩ := fireMoves_eq_enterSafe u cause s
    refine ⟨movedMask s c.mask, fireOrder u s, n, fun k => getLsbD_movedMask.trans hmoves, fireOrder_nodup u s,
      fun k => (mem_fireOrder u s).trans hmoves, ?_⟩
    intro s1 s2
    have hs2 : s2 = fireMoves u cause s := hall.symm
    rw [hs2]
    refine ⟨fire_eq u cause edge tag s, fun k hk => ?_, fun k hk => ?_, fun v hv => trip_fireMoves_ne u cause s hv, htime, hport,
      hadmin⟩
    · exact (track_fireMoves u cause s k).trans (if_neg (mt hmoves.mp hk))
    · exact (track_fireMoves u cause s k).trans (if_pos (hmoves.mpr hk))
  case acceptance =>
    intro u l level edge s c meets
    have hmeets : c.condition.metBy level = true ↔ meets := TripCond.metBy_iff
    refine ⟨fun h => if_neg fun hc => ?_, fun ha hl hm => ?_⟩
    · obtain ⟨harmed, hline, hmet⟩ := hc
      exact h.elim (absurd harmed) fun h => h.elim (absurd hline) (absurd (hmeets.mp hmet))
    · have hfires : tripAcceptance u l level edge s = fire u c.condition.fireCause (some edge) 0 s :=
        if_pos ⟨ha, hl, hmeets.mpr hm⟩
      refine ⟨fun h => hfires.trans ?_, fun h => hfires.trans ?_⟩ <;> rcases h with h | h <;> rw [h] <;> rfl
  case commands =>
    intro id unit u pos s ht hu c fires clears moves trip fired holds
    have hfire := fireTripEffect_eq (s := s.taken) (id := id) hu
    have hclear := clearTripEffect_eq (s := s.taken) hu
    have accepted : c.state ≠ .fired →
        Completes (.fireTrip id unit) s (handAdminDone fires .ok none (fire u .host none id s.taken)) :=
      fun h => completes_answer rfl ht (hfire.trans (if_neg h))
    refine ⟨fun h => completes_answer rfl ht (hfire.trans (if_pos h)), accepted, fun h hn => ?_, fun h k hk hone => ?_,
      fun h => completes_answer rfl ht (hclear.trans (if_pos h)),
      fun h hh => completes_answer rfl ht (hclear.trans ((if_neg (not_not_intro h)).trans (if_pos (levelHolds_iff.mpr hh)))),
      fun h hh r hr => completes_answer rfl ht (hclear.trans ((if_neg (not_not_intro h)).trans ?_))⟩
    · exact fire_none (s := s.taken) (movable_nil hn) ▸ accepted h
    · exact fire_single (s := s.taken) (movable_single hk hone) ▸ accepted h
    · have hr' : (s.taken.trip u).lastFire = some r := hr
      refine (if_neg (mt levelHolds_iff.mp hh)).trans ?_
      rw [hr']
      rfl

end Sys2Proof.Machine
end

section
/-!
CERTIFICATE. The two ways into FAULTED: an error of the admin engine's read (R169) and of an entry write of RQ0 (R148), with all that the
entry does (R132, R163, R175, R187).
-/

namespace Sys2Proof.Machine

/-! ## Entry into FAULTED -/

/-- In FAULTED every report is dropped (R137). -/
theorem handReport_faulted {s : State} (q : QueueId) (r : Report) (h : s.port.dev = .faulted) : handReport q r s = s :=
  handReport_dropped r (by rw [decision_eq, if_pos (.inl h)])

/-- In FAULTED an entry of a track into SAFE changes tracks and lines alone: its report is dropped. -/
theorem forceSafe_faulted {s : State} (t : TrackId) (cause : SafeCause) (h : s.port.dev = .faulted) :
    ∃ tracks lines, forceSafe t cause s = { s with tracks := tracks, lines := lines } := by
  unfold forceSafe
  split
  · rw [enterSafe_eq, handReport_faulted _ _ (by rw [claimSafe_eq]; exact h), claimSafe_eq]
    exact ⟨_, _, rfl⟩
  · exact ⟨s.tracks, s.lines, rfl⟩

theorem forceAll_faulted {s : State} (cause : SafeCause) (ts : List TrackId) (h : s.port.dev = .faulted) :
    ∃ tracks lines, forceAll cause ts s = { s with tracks := tracks, lines := lines } := by
  refine foldl_keeps (P := fun s' => ∃ tracks lines, s' = { s with tracks := tracks, lines := lines }) _ ?_ ts
    ⟨s.tracks, s.lines, rfl⟩
  rintro _ t ⟨tracks, lines, rfl⟩
  obtain ⟨tracks', lines', e⟩ := forceSafe_faulted (s := { s with tracks := tracks, lines := lines }) t cause h
  exact ⟨tracks', lines', e⟩

/-- The state in which the device has entered FAULTED and the tracks still are as they were. -/
def faulting (cause : FaultCause) (s : State) : State :=
  { s with port := { s.port with dev := .faulted, faultCause := cause }, waiting := none }

section EnterFaulted

variable {cause : FaultCause} {s : State} (h : s.live)

include h

theorem enterFaulted_live : enterFaulted cause s =
    fatalMessage ((forceAll .deviceFault (List.finRange 8) (faulting cause s)).setEngine .idleWait) := if_pos h

/-- Every bound track that is not SAFE enters SAFE (R132). -/
theorem track_enterFaulted (k : TrackId) : (enterFaulted cause s).track k = (s.track k).forced .deviceFault := by
  rw [enterFaulted_live h, track_fatalMessage, State.setEngine_track, track_forceAll _ _ (List.nodup_finRange 8),
    if_pos (List.mem_finRange k)]
  rfl

/-- The lanes of those tracks take their safe-mode results (R129, R132). -/
theorem line_enterFaulted (l : LineId) : (enterFaulted cause s).line l =
    match (s.line l).owner with
    | none => s.line l
    | some o => if (s.track o.track).canEnterSafe = true then (s.line l).madeSafe else s.line l := by
  have hlines : (enterFaulted cause s).line l = (forceAll .deviceFault (List.finRange 8) (faulting cause s)).line l := by
    rw [enterFaulted_live h]
    simp only [State.line, lines_fatalMessage, State.setEngine_lines]
  rw [hlines, line_forceAll _ _ (List.nodup_finRange 8)]
  change (match (s.line l).owner with
    | none => s.line l
    | some o => if o.track ∈ List.finRange 8 ∧ (s.track o.track).canEnterSafe = true then (s.line l).madeSafe else s.line l) = _
  cases (s.line l).owner with
  | none => rfl
  | some o => exact if_congr (and_iff_right (List.mem_finRange o.track)) rfl rfl

/-- Beside tracks and lines: the device state and its cause, the engine and the waiting ADMIN-DONE dropped, the delay timers idle, and
the fatal message on the vector of RQ0 (R163, R175, R187). -/
theorem enterFaulted_eq : ∃ tracks lines, enterFaulted cause s =
    (idleDelayTimers { faulting cause s with
      admin := { s.admin with engine := .idleWait }, tracks := tracks, lines := lines }).sendMessage (s.rq 0).irq.vector := by
  obtain ⟨tracks, lines, e⟩ := forceAll_faulted (s := faulting cause s) .deviceFault (List.finRange 8) rfl
  rw [enterFaulted_live h, e]
  exact ⟨tracks, lines, rfl⟩

theorem enterFaulted_fields :
    (enterFaulted cause s).port = { s.port with dev := .faulted, faultCause := cause }
      ∧ (enterFaulted cause s).admin = { s.admin with engine := .idleWait } ∧ (enterFaulted cause s).waiting = none
      ∧ (enterFaulted cause s).trips = s.trips ∧ (enterFaulted cause s).time = s.time := by
  obtain ⟨tracks, lines, e⟩ := enterFaulted_eq (cause := cause) h
  rw [e, sendMessage_eq]
  exact ⟨rfl, rfl, rfl, rfl, rfl⟩

/-- No entry is posted: of its table entry every queue has its delay timer idle and nothing else changed (R163). -/
theorem rq_enterFaulted (q : QueueId) :
    (enterFaulted cause s).rq q = { s.rq q with irq := { (s.rq q).irq with timer := none } } := by
  obtain ⟨tracks, lines, e⟩ := enterFaulted_eq (cause := cause) h
  rw [e, sendMessage_eq]
  simp [State.rq, idleDelayTimers, faulting]

/-- The reads and writes in flight are as they were, and the fatal message goes out on an unmasked vector (R162, R163). -/
theorem link_enterFaulted : (enterFaulted cause s).link.reads = s.link.reads ∧ (enterFaulted cause s).link.writes = s.link.writes
    ∧ (s.link.msiAllowed = true → s.link.masked[(s.rq 0).irq.vector] = false →
        (enterFaulted cause s).link.out = s.link.out ++ [.message (s.rq 0).irq.vector]) := by
  obtain ⟨tracks, lines, e⟩ := enterFaulted_eq (cause := cause) h
  have hlink : (enterFaulted cause s).link =
      if s.link.msiAllowed = false then s.link
      else if s.link.masked[(s.rq 0).irq.vector] then { s.link with marks := s.link.marks.set (s.rq 0).irq.vector true }
      else { s.link with out := s.link.out ++ [.message (s.rq 0).irq.vector] } := by
    rw [e, sendMessage_eq]
    rfl
  rw [hlink]
  refine ⟨?_, ?_, fun hallowed hmasked => ?_⟩
  · split
    · rfl
    · split <;> rfl
  · split
    · rfl
    · split <;> rfl
  · rw [if_neg (by simp [hallowed]), if_neg (by simp [hmasked])]

end EnterFaulted

/-! ## The events -/

/-- An error of the admin engine's read in FETCHING is fatal (R169). -/
theorem failCommandRead_takes {s : State} {pos : Nat} (h : s.takes pos) : failCommandRead s = enterFaulted .aqFetch s.taken := by
  obtain ⟨hd, he, hr⟩ := h
  obtain ⟨r, hr⟩ := Option.isSome_iff_exists.mp hr
  simp [failCommandRead, hr, hd, he]

section Rq0

variable {s : State} (hw : (s.writeOf (WritePurpose.isEntryOf 0)).isSome)

include hw

/-- An error of an entry write of RQ0 in READY or HALTED is fatal (R148). -/
theorem failEntry_rq0_live (h : s.live) :
    failEntry 0 s = enterFaulted .rq0Write (lowerInFlight 0 (s.dropWrite (WritePurpose.isEntryOf 0))) := by
  obtain ⟨w, hw⟩ := Option.isSome_iff_exists.mp hw
  rcases h with h | h <;> simp [failEntry, hw, h, lowerInFlight]

/-- In FAULTED the write is over and nothing else happens, for a queue that is not closing (R148). -/
theorem failEntry_rq0_faulted (hc : (s.rq 0).closing = false) (h : s.port.dev = .faulted) :
    failEntry 0 s = lowerInFlight 0 (s.dropWrite (WritePurpose.isEntryOf 0)) := by
  obtain ⟨w, hw⟩ := Option.isSome_iff_exists.mp hw
  simp [failEntry, hw, h, lowerInFlight, closeIfDrained, hc]

end Rq0

/-- Settles O29: both errors are an `enterFaulted`, and its parts are given field by field; in FAULTED the error of RQ0 ends its write
alone. -/
theorem fatalErrorsFault : Obligations.FatalErrorsFault := by
  refine ⟨fun pos s ht => ?read, fun s hw hc =>
    ⟨fun hlive => ?write, fun hd => congrArg Host.Outcome.next (failEntry_rq0_faulted hw hc hd)⟩⟩
  case read =>
    have hlive : s.taken.live := .inl ht.1
    obtain ⟨hport, hadmin, hwaiting, htrips, htime⟩ := enterFaulted_fields (cause := .aqFetch) hlive
    obtain ⟨hreads, hwrites, hout⟩ := link_enterFaulted (cause := .aqFetch) hlive
    have htrack := track_enterFaulted (cause := .aqFetch) hlive
    refine ⟨_, congrArg Host.Outcome.next (failCommandRead_takes ht), hport, hadmin, hwaiting, hreads, hwrites, fun k hk => ?_,
      fun k hu hs => ?_, fun l => ?_, rq_enterFaulted hlive, htrips, htime, hout⟩
    · exact (htrack k).trans (Track.forced_kept _ fun h => hk.elim (canEnterSafe_iff.mp h).1 (canEnterSafe_iff.mp h).2)
    · exact (htrack k).trans (Track.forced_moved _ (canEnterSafe_iff.mpr ⟨hu, hs⟩))
    · rw [line_enterFaulted hlive]
      change (match (s.line l).owner with
        | none => s.line l
        | some o => if (s.track o.track).canEnterSafe = true then (s.line l).madeSafe else s.line l) = _
      cases (s.line l).owner with
      | none => rfl
      | some o =>
        exact (if_congr (canEnterSafe_iff.trans not_or.symm) rfl rfl).trans (ite_not _ _ _)
  case write =>
    have hlive' : (lowerInFlight 0 (s.dropWrite (WritePurpose.isEntryOf 0))).live := hlive
    obtain ⟨hport, hadmin, hwaiting, -⟩ := enterFaulted_fields (cause := .rq0Write) hlive'
    refine ⟨_, congrArg Host.Outcome.next (failEntry_rq0_live hw hlive), hport, ?_, hadmin, hwaiting, fun k hk => ?_⟩
    · rw [rq_enterFaulted hlive', lowerInFlight, State.rq_setRq_self]
      rfl
    · rw [track_enterFaulted hlive', Track.forced_state]
      exact if_neg hk

end Sys2Proof.Machine
end

section
/-!
SUPPORT. A table entry of a report queue and its moderation context through every change of it (R133, R135, R142, R155): one lemma per
change, for a sound entry and for the ring of RQ0 without a free slot.
-/

namespace Sys2Proof.Machine

/-! ## Moderation contexts (R155) -/

/-- The moderation context after a message on the queue's behalf (R157). -/
def Moderation.cleared (m : Moderation) : Moderation := { m with unsignalled := 0, timer := none }

/-- The moderation context with its delay timer idle (R163). -/
def Moderation.idled (m : Moderation) : Moderation := { m with timer := none }

/-- The moderation context after one more counted entry that sends no message (R156). -/
def Moderation.incremented (m : Moderation) (now : Time) : Moderation :=
  { m with
    unsignalled := m.unsignalled + 1
    timer := if m.unsignalled = 0 ∧ m.delay ≠ 0 then some (now + ticksOf m.delay) else m.timer }

/-- With nothing counted the threshold alone is bounded. -/
theorem Moderation.uncounted_sound {m : Moderation} (hcount : m.unsignalled = 0) (htimer : m.timer = none) (h0 : m.threshold ≠ 0)
    (h : m.threshold ≤ 255) : m.sound :=
  ⟨hcount ▸ Nat.pos_of_ne_zero h0, h, fun _ => ⟨hcount, htimer⟩, fun ht => absurd htimer ht⟩

/-- A message clears the count, whatever it was. -/
theorem Moderation.cleared_sound {m : Moderation} (h0 : m.threshold ≠ 0) (h : m.threshold ≤ 255) : m.cleared.sound :=
  uncounted_sound rfl rfl h0 h

theorem Moderation.sound.cleared {m : Moderation} (h : m.sound) : m.cleared.sound := by
  obtain ⟨hlt, hle, -, -⟩ := h
  exact Moderation.cleared_sound (by omega) hle

theorem Moderation.sound.idled {m : Moderation} (h : m.sound) : m.idled.sound := by
  obtain ⟨hlt, hle, hoff, -⟩ := h
  exact ⟨hlt, hle, fun he => ⟨(hoff he).1, rfl⟩, fun ht => absurd rfl ht⟩

theorem Moderation.sound.incremented {m : Moderation} (now : Time) (h : m.sound) (he : m.enable = true)
    (hn : m.unsignalled + 1 ≠ m.threshold) : (m.incremented now).sound := by
  obtain ⟨hlt, hle, -, ht⟩ := h
  refine ⟨Nat.lt_of_le_of_ne hlt hn, hle, fun hoff => absurd (he.symm.trans hoff) (by decide), fun hset => ⟨Nat.succ_ne_zero _, ?_⟩⟩
  by_cases hd : m.unsignalled = 0 ∧ m.delay ≠ 0
  · exact hd.2
  · have htimer : (m.incremented now).timer = m.timer := if_neg hd
    exact (ht (htimer ▸ hset)).2

/-! ## The slots of a ring (R135) -/

/-- The distance to the next position is one more, or 0 when the next position is the other end. -/
theorem ringDist_next {size a b : Nat} (hs : 0 < size) :
    ringDist size ((a + 1) % size) b = if ringDist size a b + 1 = size then 0 else ringDist size a b + 1 := by
  rw [← mod_of_lt (ringDist_lt hs)]
  simp only [ringDist, Nat.mod_add_mod]
  congr 1
  omega

theorem ringDist_eq_zero {size a b : Nat} (ha : a < size) (hb : b < size) : ringDist size a b = 0 ↔ a = b := by
  rw [ringDist_eq ha hb]
  split <;> omega

/-- A claimed slot is one free slot less (R135, R138). -/
theorem freeSlots_claimSlot {c : ReportQueue} (hr : c.release < c.size) (hl : c.lap = false) :
    freeSlots (claimSlot c) = freeSlots c - 1 := by
  have hs : 0 < c.size := Nat.zero_lt_of_lt hr
  have hlt : ringDist c.size c.write c.release < c.size := ringDist_lt hs
  have hnext : ringDist c.size ((c.write + 1) % c.size) c.release = _ := ringDist_next hs
  have hmeet : (c.write + 1) % c.size = c.release ↔ ringDist c.size c.write c.release + 1 = c.size := by
    rw [← ringDist_eq_zero (Nat.mod_lt _ hs) hr, hnext]
    split <;> simp_all
  by_cases h : (c.write + 1) % c.size = c.release
  · have := hmeet.mp h
    simp only [freeSlots, outstanding, claimSlot, h, hl, if_true, Bool.false_eq_true, if_false]
    omega
  · have := mt hmeet.mpr h
    rw [if_neg this] at hnext
    simp only [freeSlots, outstanding, claimSlot, h, hl, if_false, Bool.false_eq_true, hnext]
    omega

/-- A ring with a free slot is not lapped. -/
theorem lap_of_freeSlots {c : ReportQueue} (h : 1 ≤ freeSlots c) : c.lap = false := by
  cases hl : c.lap with
  | false => rfl
  | true => simp [freeSlots, outstanding, hl] at h

theorem freeSlots_absent : freeSlots ReportQueue.absent = 0 := rfl

/-! ## Sound table entries -/

/-- What of a table entry its ring is made of. -/
def ReportQueue.ring (c : ReportQueue) : Addr × Nat × Nat × Nat × Bool := (c.base, c.size, c.write, c.release, c.lap)

theorem ReportQueue.absent_sound (q : QueueId) : ReportQueue.absent.sound q := ⟨fun _ => rfl, fun h => absurd rfl h⟩

theorem ReportQueue.sound.eq_absent {q : QueueId} {c : ReportQueue} (h : c.sound q) (ha : c.state = .absent) :
    c = ReportQueue.absent := h.1 ha

/-- A present entry with the ring of a sound one. -/
theorem ReportQueue.sound.change {q : QueueId} {c d : ReportQueue} (h : c.sound q) (hc : c.state ≠ .absent)
    (hd : d.state ≠ .absent) (hring : d.ring = c.ring) (hpending : overflowPending d = true → freeSlots c ≤ reserve q)
    (hirq : d.irq.sound) : d.sound q := by
  obtain ⟨-, hpresent⟩ := h
  obtain ⟨hsize, hbase, hwrite, hrelease, hlap, -, -⟩ := hpresent hc
  simp only [ReportQueue.ring, Prod.mk.injEq] at hring
  obtain ⟨eb, es, ew, er, el⟩ := hring
  have hfree : freeSlots d = freeSlots c := by simp only [freeSlots, outstanding, es, ew, er, el]
  refine ⟨fun ha => absurd ha hd, fun _ => ⟨es ▸ hsize, eb ▸ hbase, ?_, ?_, ?_, fun hp => hfree ▸ hpending hp, hirq⟩⟩
  · rwa [ew, es]
  · rwa [er, es]
  · rwa [el, ew, er]

/-- A sound ring with a free slot stays sound when the slot is claimed (R138). -/
theorem ReportQueue.sound.claimSlot {q : QueueId} {c : ReportQueue} (h : c.sound q) (hf : 1 ≤ freeSlots c) :
    (claimSlot c).sound q := by
  have hp : c.state ≠ .absent := fun ha => by rw [h.eq_absent ha, freeSlots_absent] at hf; omega
  have hl := lap_of_freeSlots hf
  obtain ⟨-, hpresent⟩ := h
  obtain ⟨hsize, hbase, hwrite, hrelease, -, hpending, hirq⟩ := hpresent hp
  refine ⟨fun ha => absurd ha hp, fun _ => ⟨hsize, hbase, Nat.mod_lt _ (Nat.zero_lt_of_lt hwrite), hrelease, fun hlap => ?_,
    fun hov => ?_, hirq⟩⟩
  · by_contra hne
    have hne : ¬(c.write + 1) % c.size = c.release := hne
    simp [Machine.claimSlot, hne, hl] at hlap
  · rw [freeSlots_claimSlot hrelease hl]
    exact (Nat.sub_le _ _).trans (hpending hov)

/-! ## Changes of an entry -/

/-- A change of the table entry of this queue that keeps it sound and frees no slot of a full RQ0. -/
structure ReportQueue.Calm (q : QueueId) (c d : ReportQueue) : Prop where
  sound : c.sound q → d.sound q
  full : q = 0 → freeSlots c = 0 → freeSlots d = 0

namespace ReportQueue.Calm

variable {q : QueueId} {c d e : ReportQueue}

theorem refl (q : QueueId) (c : ReportQueue) : c.Calm q c := ⟨id, fun _ => id⟩

theorem trans (h : c.Calm q d) (h' : d.Calm q e) : c.Calm q e :=
  ⟨h'.sound ∘ h.sound, fun hq => h'.full hq ∘ h.full hq⟩

theorem toAbsent (q : QueueId) (c : ReportQueue) : c.Calm q absent := ⟨fun _ => absent_sound q, fun _ _ => rfl⟩

/-- A change beside the ring, of the moderation context and of what is in flight: an ABSENT entry it leaves as it was. -/
theorem beside (habsent : c = absent → d = absent) (hstate : d.state = c.state) (hcounts : d.counts = c.counts)
    (hring : d.ring = c.ring) (hirq : c.state ≠ .absent → c.irq.sound → d.irq.sound) : c.Calm q d := by
  refine ⟨fun h => ?_, fun _ hf => ?_⟩
  · by_cases ha : c.state = .absent
    · rw [habsent (h.eq_absent ha)]
      exact absent_sound q
    · obtain ⟨-, hpresent⟩ := id h
      obtain ⟨-, -, -, -, -, hpending, hsound⟩ := hpresent ha
      exact h.change ha (hstate ▸ ha) hring (fun hp => hpending (by rwa [overflowPending, ← hstate, ← hcounts])) (hirq ha hsound)
  · simp only [ring, Prod.mk.injEq] at hring
    obtain ⟨-, es, ew, er, el⟩ := hring
    simpa only [freeSlots, outstanding, es, ew, er, el] using hf

theorem cleared (q : QueueId) (c : ReportQueue) : c.Calm q { c with irq := c.irq.cleared } :=
  beside (fun e => by rw [e]; rfl) rfl rfl rfl fun _ => Moderation.sound.cleared

theorem idled (q : QueueId) (c : ReportQueue) : c.Calm q { c with irq := c.irq.idled } :=
  beside (fun e => by rw [e]; rfl) rfl rfl rfl fun _ => Moderation.sound.idled

theorem lowered (q : QueueId) (c : ReportQueue) : c.Calm q { c with inFlight := c.inFlight - 1 } :=
  beside (fun e => by rw [e]; rfl) rfl rfl rfl fun _ => id

theorem irq {m : Moderation} (hp : c.state ≠ .absent) (hm : c.irq.sound → m.sound) : c.Calm q { c with irq := m } :=
  beside (fun e => absurd (congrArg ReportQueue.state e) hp) rfl rfl rfl fun _ => hm

theorem closing (hp : c.state ≠ .absent) : c.Calm q { c with closing := true } :=
  beside (fun e => absurd (congrArg ReportQueue.state e) hp) rfl rfl rfl fun _ => id

/-- A FAILED queue has no overflow pending (R142). -/
theorem failed (hp : c.state ≠ .absent) : c.Calm q { c with state := .failed } := by
  refine ⟨fun h => ?_, fun _ => id⟩
  obtain ⟨-, hpresent⟩ := id h
  obtain ⟨-, -, -, -, -, -, hirq⟩ := hpresent hp
  exact h.change hp (by simp) rfl (fun ho => by simp [overflowPending] at ho) hirq

/-- A lost report: the queue is FAILED, has no free slot above the reserve, or has an overflow pending, which says the same (R137,
R142). -/
theorem counted (counts : OverflowCounts) (hp : c.state ≠ .absent)
    (hlost : c.state = .failed ∨ freeSlots c ≤ reserve q ∨ overflowPending c = true) : c.Calm q { c with counts := counts } := by
  refine ⟨fun h => ?_, fun _ => id⟩
  obtain ⟨-, hpresent⟩ := id h
  obtain ⟨-, -, -, -, -, hpending, hirq⟩ := hpresent hp
  refine h.change hp hp rfl (fun ho => ?_) hirq
  rcases hlost with hfailed | hfull | hover
  · simp [overflowPending, hfailed] at ho
  · exact hfull
  · exact hpending hover

theorem claimed (hf : 1 ≤ freeSlots c) : c.Calm q (claimSlot c) := ⟨fun h => h.claimSlot hf, fun _ h0 => by omega⟩

end ReportQueue.Calm

/-- An ACTIVE entry as CREATE-RQ or the device leaving IDLE makes it: an empty ring (R149, R155, R183). -/
theorem emptyRing_sound {q : QueueId} {base : Addr} {size : Nat} {m : Moderation} (hs : PowerBetween 16 4096 size)
    (hb : base.toNat % 32 = 0) (hm : m.sound) :
    ({ ReportQueue.absent with state := .active, base := base, size := size, pass := true, irq := m } : ReportQueue).sound q := by
  have hpos : 0 < size := lt_of_lt_of_le (by decide) hs.1
  exact ⟨fun h => absurd h (by simp), fun _ => ⟨hs, hb, hpos, hpos, fun h => absurd h Bool.false_ne_true,
    fun h => absurd h (by simp [overflowPending, ReportQueue.absent]), hm⟩⟩

/-- The table entry with the release index moved. -/
def ReportQueue.releasedTo (c : ReportQueue) (r : Nat) : ReportQueue := { c with release := r, lap := false }

/-- A release of this queue to this index ends an overflow (R142). -/
abbrev ReportQueue.EndsOverflow (q : QueueId) (c : ReportQueue) (r : Nat) : Prop :=
  overflowPending c = true ∧ reserve q < freeSlots (c.releasedTo r)

/-- A sound ring with its release index moved, where no overflow is left pending that its free slots would end (R142, R144). -/
theorem ReportQueue.sound.releasedTo {q : QueueId} {c : ReportQueue} {r : Nat} (counts : OverflowCounts) (h : c.sound q)
    (hp : c.state ≠ .absent) (hr : r < c.size)
    (hover : overflowPending { c with counts := counts } = true → freeSlots (c.releasedTo r) ≤ reserve q) :
    ({ c.releasedTo r with counts := counts } : ReportQueue).sound q := by
  obtain ⟨-, hpresent⟩ := h
  obtain ⟨hsize, hbase, hwrite, -, -, -, hirq⟩ := hpresent hp
  exact ⟨fun ha => absurd ha hp, fun _ => ⟨hsize, hbase, hwrite, hr, fun hl => absurd hl Bool.false_ne_true, hover, hirq⟩⟩

end Sys2Proof.Machine
end

section
/-!
SUPPORT. The changes of the state that keep the report queues sound and the admin engine in accord whatever the engine holds: the device
state, the run request, the engine and the waiting ADMIN-DONE stay, and every table entry changes calmly. All that tracks, lines, trip
units and admin commands do is of this kind.
-/

namespace Sys2Proof.Machine

/-! ## Messages on a queue's behalf -/

/-- A message for a queue whose context has just been written clears that context (R157). -/
theorem sendFor_setIrq (q : QueueId) (m : Moderation) (s : State) :
    sendFor q (s.setIrq q m) = (s.setIrq q m.cleared).sendMessage m.vector := by
  simp [sendFor_eq, State.setIrq, Moderation.cleared]

/-- What counting a completed entry does, in its three cases (R156, R157). -/
theorem countEntry_eq (q : QueueId) (s : State) :
    countEntry q s =
      if (s.rq q).irq.enable = false then s
      else if (s.rq q).irq.unsignalled + 1 = (s.rq q).irq.threshold then
        (s.setIrq q (s.rq q).irq.cleared).sendMessage (s.rq q).irq.vector
      else s.setIrq q ((s.rq q).irq.incremented s.time) := by
  unfold countEntry
  dsimp only
  by_cases he : (s.rq q).irq.enable = false
  · rw [if_pos he, if_pos (by rw [he]; rfl)]
  · rw [if_neg he, if_neg (by simpa using he), sendFor_setIrq]
    rfl

/-- The moderation context that an accepted SET-RQ-INTERRUPT leaves (R160); the link alone changes besides. -/
theorem applyInterruptSettings_cases {q : QueueId} {enable : Bool} {vector : VectorId} {threshold : Nat} {delay : BitVec 16}
    (s : State) (h0 : threshold ≠ 0) (h : threshold ≤ 255) :
    ∃ m link, ((s.rq q).irq.sound → m.sound)
      ∧ applyInterruptSettings q enable vector threshold delay s = { s.setIrq q m with link := link } := by
  have sends : ∀ m : Moderation, m.threshold = threshold →
      ∃ m' link, ((s.rq q).irq.sound → m'.sound) ∧ sendFor q (s.setIrq q m) = { s.setIrq q m' with link := link } := fun m hm =>
    ⟨m.cleared, _, fun _ => Moderation.cleared_sound (by rwa [hm]) (by rwa [hm]), by rw [sendFor_setIrq, sendMessage_eq]⟩
  have sets : ∀ m : Moderation, ((s.rq q).irq.sound → m.sound) →
      ∃ m' link, ((s.rq q).irq.sound → m'.sound) ∧ s.setIrq q m = { s.setIrq q m' with link := link } := fun m hm => ⟨m, _, hm, rfl⟩
  have idle : (s.rq q).irq.enable = false → (s.rq q).irq.sound → (s.rq q).irq.unsignalled = 0 ∧ (s.rq q).irq.timer = none :=
    fun hold ⟨_, _, hoff, _⟩ => hoff hold
  unfold applyInterruptSettings
  dsimp only
  split
  · exact sets _ fun _ => Moderation.uncounted_sound rfl rfl h0 h
  · next hold => exact sets _ fun hs => Moderation.uncounted_sound (idle hold hs).1 (idle hold hs).2 h0 h
  · next hold =>
    split
    · exact sets _ fun hs => Moderation.uncounted_sound (idle hold hs).1 (idle hold hs).2 h0 h
    · exact sends _ rfl
  · split
    · exact sends _ rfl
    · next hbelow =>
      have hlt : (s.rq q).irq.unsignalled < threshold := by omega
      split
      · exact sets _ fun _ => ⟨hlt, h, nofun, fun ht => absurd rfl ht⟩
      · next hdelay =>
        split
        · next hidle => exact sets _ fun _ => ⟨hlt, h, nofun, fun _ => ⟨hidle.2, hdelay⟩⟩
        · refine sets _ fun hs => ?_
          obtain ⟨-, -, -, hset⟩ := hs
          exact ⟨hlt, h, nofun, fun ht => ⟨(hset ht).1, hdelay⟩⟩

/-! ## Calm changes -/

/-- Nothing changes of the device state, the run request, the engine and the waiting ADMIN-DONE, and every table entry calmly. -/
structure State.Calm (s s' : State) : Prop where
  dev : s'.port.dev = s.port.dev
  run : s'.port.run = s.port.run
  engine : s'.admin.engine = s.admin.engine
  waiting : s'.waiting = s.waiting
  rq : ∀ q, (s.rq q).Calm q (s'.rq q)

namespace State.Calm

variable {s0 s s' : State}

theorem refl (s : State) : s.Calm s := ⟨rfl, rfl, rfl, rfl, fun q => .refl q _⟩

theorem trans (h : s0.Calm s) (h' : s.Calm s') : s0.Calm s' :=
  ⟨h'.dev.trans h.dev, h'.run.trans h.run, h'.engine.trans h.engine, h'.waiting.trans h.waiting, fun q => (h.rq q).trans (h'.rq q)⟩

/-- A change of other parts of the state. -/
theorem beside (h : s0.Calm s) (hrqs : s'.rqs = s.rqs) (hport : s'.port = s.port) (hadmin : s'.admin = s.admin)
    (hwaiting : s'.waiting = s.waiting) : s0.Calm s' :=
  h.trans ⟨by rw [hport], by rw [hport], by rw [hadmin], hwaiting, fun q => by simp only [State.rq, hrqs]; exact .refl q _⟩

theorem setRq (q : QueueId) {c : ReportQueue} (h : s0.Calm s) (hc : (s.rq q).Calm q c) : s0.Calm (s.setRq q c) := by
  refine h.trans ⟨rfl, rfl, rfl, rfl, fun p => ?_⟩
  rw [State.rq_setRq]
  split
  · next e => exact e ▸ hc
  · exact .refl p _

theorem setIrq (q : QueueId) {m : Moderation} (hp : (s.rq q).state ≠ .absent) (h : s0.Calm s)
    (hm : (s.rq q).irq.sound → m.sound) : s0.Calm (s.setIrq q m) := h.setRq q (.irq hp hm)

/-- A report is posted where a slot above the reserve is free and no overflow is pending, and otherwise counted (R137). -/
theorem handReport (q : QueueId) (r : Report) (h : s0.Calm s) : s0.Calm (handReport q r s) := by
  have hd := decision_eq s q
  split at hd
  · rwa [handReport_dropped r hd]
  · next hdrop =>
    simp only [not_or] at hdrop
    obtain ⟨-, hp, -⟩ := hdrop
    split at hd
    · next hroom =>
      rw [handReport_posted r hd]
      exact (h.setRq q (.claimed (by omega))).beside rfl rfl rfl rfl
    · next hroom =>
      rw [handReport_counted r hd]
      refine h.setRq q (.counted _ hp ?_)
      by_contra hno
      simp only [not_or, not_le] at hno
      obtain ⟨hfailed, hfree, hover⟩ := hno
      have ha : (s.rq q).state = .active := by cases hs : (s.rq q).state <;> simp_all
      exact hroom ⟨ha, hfree, by simpa [overflowPending, ha] using hover⟩

theorem queueEvent (b : Byte) (body : ReportBody) (h : s0.Calm s) : s0.Calm (queueEvent b body s) := h.handReport 0 _

/-- What events of tracks and acceptances are made of is calm. -/
theorem inputClosed (s0 : State) : InputClosed s0.Calm where
  onTrack _ :=
    { report := fun q r _ h => h.handReport q r
      context := fun _ _ _ h => h.beside rfl rfl rfl rfl
      claim := fun f s _ _ h => h.beside (s.mapLines_rqs f) (s.mapLines_port f) (s.mapLines_admin f) (s.mapLines_waiting f)
      retireWord := fun _ _ _ h => h.beside rfl rfl rfl rfl }
  cell _ _ _ h := h.beside rfl rfl rfl rfl
  unit _ _ _ h := h.beside rfl rfl rfl rfl
  choice _ _ h := h.beside rfl rfl rfl rfl

theorem onTrack (s0 : State) (t : TrackId) : TrackClosed t s0.Calm := (inputClosed s0).onTrack t

theorem mapLines (f : LineId → Line → Line) (h : s0.Calm s) : s0.Calm (s.mapLines f) :=
  h.beside (s.mapLines_rqs f) (s.mapLines_port f) (s.mapLines_admin f) (s.mapLines_waiting f)

theorem setTrack (t : TrackId) (c : Track) (h : s0.Calm s) : s0.Calm (s.setTrack t c) := h.beside rfl rfl rfl rfl

/-! ## Messages and entries -/

theorem sendMessage (v : VectorId) (h : s0.Calm s) : s0.Calm (s.sendMessage v) := by
  rw [sendMessage_eq]
  exact h.beside rfl rfl rfl rfl

theorem sendFor (q : QueueId) (h : s0.Calm s) : s0.Calm (sendFor q s) := (h.setRq q (.cleared q _)).sendMessage _

theorem countEntry (q : QueueId) (hp : (s.rq q).state ≠ .absent) (h : s0.Calm s) : s0.Calm (countEntry q s) := by
  rw [countEntry_eq]
  split
  · exact h
  · next he =>
    split
    · exact (h.setIrq q hp Moderation.sound.cleared).sendMessage _
    · next hn => exact h.setIrq q hp fun hm => hm.incremented s.time (by simpa using he) hn

theorem lowerInFlight (q : QueueId) (h : s0.Calm s) : s0.Calm (lowerInFlight q s) := h.setRq q (.lowered q _)

theorem makeAbsent (q : QueueId) (h : s0.Calm s) : s0.Calm (makeAbsent q s) := h.setRq q (.toAbsent q _)

/-! ## The commands that the admin engine takes -/

theorem setLineEffect (p : SetLineParams) (h : s0.Calm s) : s0.Calm (setLineEffect p s).2 := by
  unfold Machine.setLineEffect
  split
  · exact h
  · split
    · dsimp only
      split
      · exact h
      · split
        · exact h
        · split
          · exact h
          · exact (inputClosed s0).applySetLine _ _ _ _ _ _ _ _ h
    · exact h

theorem setStaticEffect (mask levels : BitVec 48) (h : s0.Calm s) : s0.Calm (setStaticEffect mask levels s).2 := by
  unfold Machine.setStaticEffect
  split
  · exact h
  · exact h.mapLines _

theorem snapshotEffect (buffer : Addr) (clear : Bool) (h : s0.Calm s) : s0.Calm (snapshotEffect buffer clear s).2 := by
  unfold Machine.snapshotEffect
  split
  · exact h
  · dsimp only
    split
    · exact h.mapLines _
    · exact h

theorem bindTrackEffect (p : BindParams) (h : s0.Calm s) : s0.Calm (bindTrackEffect p s).2 := by
  unfold Machine.bindTrackEffect
  split
  · exact h
  · split
    · exact h
    · split
      · exact h
      · split
        · exact h
        · split
          · exact h
          · exact (h.setTrack _ _).mapLines _

theorem unbindTrackEffect (track : Byte) (h : s0.Calm s) : s0.Calm (unbindTrackEffect track s).2 := by
  unfold Machine.unbindTrackEffect
  split
  · exact h
  · split
    · exact (h.setTrack _ _).mapLines _
    · exact h

theorem startTracksEffect (mask mode : Byte) (start : Time) (h : s0.Calm s) : s0.Calm (startTracksEffect mask mode start s).2 := by
  rcases startTracksEffect_cases mask mode start s with e | ⟨-, moment, e⟩
  · rwa [e]
  · rw [e]
    have harm : s0.Calm (armAll (maskTracks mask) moment s) := foldl_keeps _ (fun _ t h => h.setTrack t _) _ h
    unfold startEffect
    split
    · exact foldl_keeps _ (fun _ t h => (onTrack s0 t).startTrack moment h) _ ((inputClosed s0).afterOrder _ harm)
    · exact harm

theorem stopTrackEffect (track timing lines : Byte) (h : s0.Calm s) : s0.Calm (stopTrackEffect track timing lines s).2 := by
  unfold Machine.stopTrackEffect
  split
  · exact h
  · next t _ =>
    dsimp only
    split
    · exact h
    · split
      · split
        · exact h.setTrack t _
        · exact (onTrack s0 t).stopEffect _ h
      · exact h

theorem pauseTrackEffect (track : Byte) (h : s0.Calm s) : s0.Calm (pauseTrackEffect track s).2 := by
  unfold Machine.pauseTrackEffect
  split
  · exact h
  · split
    · exact h
    · exact h.setTrack _ _

theorem resumeTrackEffect (track action choice : Byte) (h : s0.Calm s) : s0.Calm (resumeTrackEffect track action choice s).2 := by
  unfold Machine.resumeTrackEffect
  split
  · exact h
  · next t _ =>
    dsimp only
    split
    · exact h
    · split
      · exact (onTrack s0 t).flushEffect h
      · split
        · exact h
        · split
          · exact h
          · exact (onTrack s0 t).continueTrack _ h
      · exact h

theorem trackStatusEffect (track : Byte) (buffer : Addr) (h : s0.Calm s) : s0.Calm (trackStatusEffect track buffer s).2 := by
  unfold Machine.trackStatusEffect
  split
  · exact h
  · split <;> exact h

/-- RQ0 is never created by a command (R149). -/
theorem creatable_ne_zero {b : Byte} {q : QueueId} (h : creatable b = some q) : q ≠ 0 := by
  unfold creatable at h
  split at h
  · cases h
  · next hb =>
    rintro rfl
    have hzero : b.toNat = 0 := numberBelow_eq_some.mp h
    exact hb (BitVec.eq_of_toNat_eq hzero)

/-- An accepted CREATE-RQ makes a sound entry of a queue other than RQ0 (R149, R155). -/
theorem createRqEffect (p : CreateRqParams) (h : s0.Calm s) : s0.Calm (createRqEffect p s).2 := by
  unfold Machine.createRqEffect
  split
  · exact h
  · next q hq =>
    split
    · exact h
    · split
      · split
        · next hok =>
          obtain ⟨hsize, hbase, hthreshold⟩ := hok
          have ht : p.threshold.toNat ≠ 0 := fun e => hthreshold (BitVec.eq_of_toNat_eq e)
          have hle : p.threshold.toNat ≤ 255 := by omega
          exact h.setRq q ⟨fun _ => emptyRing_sound ((ringSizeOk_iff (by decide)).mp hsize) hbase
            (Moderation.uncounted_sound rfl rfl ht hle), fun e => absurd e (creatable_ne_zero hq)⟩
        · exact h
      · exact h

theorem deleteRqEffect (queue : Byte) (h : s0.Calm s) : s0.Calm (deleteRqEffect queue s).2 := by
  unfold Machine.deleteRqEffect
  split
  · exact h
  · next q _ =>
    dsimp only
    split
    · exact h
    · next hp =>
      split
      · exact h
      · split
        · exact h.makeAbsent q
        · exact h.setRq q (.closing hp)

theorem setRqInterruptEffect (p : RqInterruptParams) (h : s0.Calm s) : s0.Calm (setRqInterruptEffect p s).2 := by
  unfold Machine.setRqInterruptEffect
  split
  · exact h
  · next q _ =>
    split
    · exact h
    · next hp =>
      split
      · next enable vector _ _ =>
        split
        · exact h
        · next hthreshold =>
          have ht : p.threshold.toNat ≠ 0 := fun e => hthreshold (BitVec.eq_of_toNat_eq e)
          obtain ⟨m, link, hm, e⟩ := applyInterruptSettings_cases (q := q) (enable := enable) (vector := vector) (delay := p.delay) s ht
            (by omega)
          change s0.Calm (applyInterruptSettings q enable vector p.threshold.toNat p.delay s)
          rw [e]
          exact (h.setIrq q hp hm).beside rfl rfl rfl rfl
      · exact h

theorem setTripEffect (p : SetTripParams) (h : s0.Calm s) : s0.Calm (setTripEffect p s).2 := by
  unfold Machine.setTripEffect
  split
  · exact h
  · next u _ =>
    split
    · split
      · exact h
      · have h1 : ∀ c, s0.Calm (s.setTrip u c) := fun _ => h.beside rfl rfl rfl rfl
        dsimp only
        generalize ({ s.trip u with state := _, source := _, condition := _, mask := _ } : Trip) = c
        split
        · exact (inputClosed s0).fire u _ _ _ (h1 c)
        · exact h1 c
    · exact h

theorem clearTripEffect (unit : Byte) (h : s0.Calm s) : s0.Calm (clearTripEffect unit s).2 := by
  unfold Machine.clearTripEffect
  split
  · exact h
  · split
    · exact h
    · split
      · exact h
      · exact h.beside rfl rfl rfl rfl

theorem fireTripEffect (id : BitVec 16) (unit : Byte) (h : s0.Calm s) : s0.Calm (fireTripEffect id unit s).2 := by
  unfold Machine.fireTripEffect
  split
  · exact h
  · split
    · exact h
    · exact (inputClosed s0).fire _ _ _ _ h

theorem identifyEffect (buffer : Addr) (h : s0.Calm s) : s0.Calm (identifyEffect buffer s).2 := by
  unfold Machine.identifyEffect
  split <;> exact h

/-- The effect of a command on the blocks is calm; what its answer does to the engine is not part of it. -/
theorem commandEffect (id : BitVec 16) (c : Command) (h : s0.Calm s) : s0.Calm (commandEffect id c s).2 := by
  cases c with
  | identify buffer => exact h.identifyEffect buffer
  | setLine p => exact h.setLineEffect p
  | setStatic mask levels => exact h.setStaticEffect mask levels
  | snapshot buffer clear => exact h.snapshotEffect buffer clear
  | bindTrack p => exact h.bindTrackEffect p
  | unbindTrack track => exact h.unbindTrackEffect track
  | startTracks mask mode start => exact h.startTracksEffect mask mode start
  | stopTrack track timing lines => exact h.stopTrackEffect track timing lines
  | pauseTrack track => exact h.pauseTrackEffect track
  | resumeTrack track action choice => exact h.resumeTrackEffect track action choice
  | trackStatus track buffer => exact h.trackStatusEffect track buffer
  | createRq p => exact h.createRqEffect p
  | deleteRq queue => exact h.deleteRqEffect queue
  | setRqInterrupt p => exact h.setRqInterruptEffect p
  | setTrip p => exact h.setTripEffect p
  | clearTrip unit => exact h.clearTripEffect unit
  | fireTrip unit => exact h.fireTripEffect id unit
  | unknown opcode => exact h

end State.Calm

end Sys2Proof.Machine
end

section
/-!
SUPPORT. The two invariants of the report queues and the admin engine (R133, R140, R142, R155, R173, R184) through the operations that are
not calm: the answer of a command, releases, the device states and the resets.
-/

namespace Sys2Proof.Machine

/-! ## The two invariants -/

/-- What of `adminSound` does not look at RQ0. -/
def State.engineSound (s : State) : Prop :=
  (s.admin.engine ≠ .idleWait → s.port.dev = .ready)
    ∧ (s.port.dev = .ready → s.port.run = false → s.admin.engine ≠ .idleWait)
    ∧ (s.port.dev = .halted → s.port.run = false)
    ∧ (s.waiting.isSome ↔ s.admin.engine.isWaitSlot)

theorem adminSound_iff {s : State} : s.adminSound ↔ s.engineSound ∧ (s.waiting.isSome → freeSlots (s.rq 0) = 0) := by
  simp only [State.adminSound, State.engineSound, and_assoc]

/-- A step that keeps each of the two invariants on its own premise. -/
structure State.Keeps (s s' : State) : Prop where
  queues : s.queuesSound → s'.queuesSound
  admin : s.adminSound → s'.adminSound

theorem State.Calm.engineSound {s s' : State} (h : s.Calm s') (hs : s.engineSound) : s'.engineSound := by
  rw [State.engineSound, h.dev, h.run, h.engine, h.waiting]
  exact hs

theorem State.Calm.keeps {s s' : State} (h : s.Calm s') : s.Keeps s' where
  queues hs q := (h.rq q).sound (hs q)
  admin hs := by
    obtain ⟨hengine, hfull⟩ := adminSound_iff.mp hs
    exact adminSound_iff.mpr ⟨h.engineSound hengine, fun hw => (h.rq 0).full rfl (hfull (by rwa [← h.waiting]))⟩

theorem State.Keeps.refl (s : State) : s.Keeps s := ⟨id, id⟩

theorem State.Keeps.trans {s s' s'' : State} (h : s.Keeps s') (h' : s'.Keeps s'') : s.Keeps s'' :=
  ⟨h'.queues ∘ h.queues, h'.admin ∘ h.admin⟩

theorem queuesSound_same {s s' : State} (h : s'.rqs = s.rqs) (hs : s.queuesSound) : s'.queuesSound := fun q => by
  simp only [State.rq, h]
  exact hs q

/-- A device that is neither READY nor HALTED, with nothing in hand and nothing waiting. -/
theorem adminSound_atRest {s : State} (he : s.admin.engine = .idleWait) (hw : s.waiting = none) (hr : s.port.dev ≠ .ready)
    (hh : s.port.dev ≠ .halted) : s.adminSound :=
  ⟨fun h => absurd he h, fun h => absurd h hr, fun h => absurd h hh, by simp [he, hw, Engine.isWaitSlot], by simp [hw]⟩

/-- A device in READY or HALTED with nothing in hand and nothing waiting is READY exactly when its run request stands (R184). -/
theorem adminSound_idle {s : State} (he : s.admin.engine = .idleWait) (hw : s.waiting = none)
    (hr : s.port.dev = .ready → s.port.run = true) (hh : s.port.dev = .halted → s.port.run = false) : s.adminSound :=
  ⟨fun h => absurd he h, fun hd hrun => absurd ((hr hd).symm.trans hrun) (by decide), hh, by simp [he, hw, Engine.isWaitSlot],
    by simp [hw]⟩

/-- Nothing waits but in WAIT-SLOT (R140). -/
theorem State.adminSound.waiting_none {s : State} (h : s.adminSound) (hw : s.admin.engine.isWaitSlot = false) : s.waiting = none := by
  obtain ⟨-, -, -, hwait, -⟩ := h
  rw [hw] at hwait
  simpa using hwait

/-- Outside READY the engine has nothing in hand and nothing waits (R175, R184). -/
theorem State.adminSound.idle {s : State} (h : s.adminSound) (hd : s.port.dev ≠ .ready) :
    s.admin.engine = .idleWait ∧ s.waiting = none := by
  have he : s.admin.engine = .idleWait := by_contra fun he => hd (h.1 he)
  exact ⟨he, h.waiting_none (by rw [he]; rfl)⟩

/-- With a command in hand that has not been answered the device is READY and nothing waits (R140, R175). -/
theorem State.adminSound.inHand {s : State} (h : s.adminSound) (he : s.admin.engine ≠ .idleWait)
    (hw : s.admin.engine.isWaitSlot = false) : s.port.dev = .ready ∧ s.waiting = none := ⟨h.1 he, h.waiting_none hw⟩

/-- The engine takes or holds another command, still unanswered. -/
theorem adminSound_setEngine {s : State} {e : Engine} (he : e ≠ .idleWait) (hw : e.isWaitSlot = false)
    (hd : s.port.dev = .ready) (hn : s.waiting = none) : (s.setEngine e).adminSound :=
  ⟨fun _ => hd, fun _ _ => he, fun hh => absurd (hd.symm.trans hh) (by decide), by simp [hn, hw], by simp [hn]⟩

/-! ## The answer of a command (R140, R171, R173) -/

theorem finishCommand_rqs (pos : Nat) (s : State) : (finishCommand pos s).rqs = s.rqs := by
  unfold finishCommand
  dsimp only
  split <;> rfl

theorem adminSound_finishCommand {s : State} (pos : Nat) (hd : s.port.dev = .ready) (hn : s.waiting = none) :
    (finishCommand pos s).adminSound := by
  unfold finishCommand
  dsimp only
  split
  · next h => exact adminSound_idle rfl hn nofun fun _ => h.2
  · next h =>
    exact adminSound_idle rfl hn (fun _ => by simpa [hd] using h) fun hh => absurd (hd.symm.trans hh) (by decide)

theorem queuesSound_postReport {s : State} {q : QueueId} (r : Report) (hf : 1 ≤ freeSlots (s.rq q)) (hs : s.queuesSound) :
    (postReport q r s).queuesSound := by
  intro p
  by_cases e : p = q
  · subst e
    rw [rq_postReport_self]
    exact (hs p).claimSlot hf
  · rw [rq_postReport_ne r s e]
    exact hs p

/-- An ADMIN-DONE of a command in hand is posted, or waits for a slot (R140, R173). -/
theorem keeps_handAdminDone {s : State} (h : InHand) (status : Status) (result : Option AdminResult)
    (he : s.admin.engine ≠ .idleWait) (hw : s.admin.engine.isWaitSlot = false) : s.Keeps (handAdminDone h status result s) := by
  unfold handAdminDone
  dsimp only
  split
  · exact .refl s
  · split
    · next hfree =>
      refine ⟨fun hs => ?_, fun hs => ?_⟩
      · exact queuesSound_same (finishCommand_rqs _ _) (queuesSound_postReport _ hfree hs)
      · obtain ⟨hd, hn⟩ := hs.inHand he hw
        exact adminSound_finishCommand _ hd hn
    · next hfree =>
      refine ⟨queuesSound_same rfl, fun hs => ?_⟩
      obtain ⟨hd, -⟩ := hs.inHand he hw
      exact ⟨fun _ => hd, fun _ _ => nofun, fun hh => absurd (hd.symm.trans hh) (by decide), by simp [Engine.isWaitSlot],
        fun _ => Nat.lt_one_iff.mp (Nat.lt_of_not_le hfree)⟩

/-- The engine acts on the answer of the command that it was fetching. -/
theorem keeps_settleReply {s : State} {pos : Nat} (h : InHand) (reply : Reply) (he : s.admin.engine = .fetching pos) :
    s.Keeps (settleReply h reply s) := by
  have hidle : s.admin.engine ≠ .idleWait := by rw [he]; exact nofun
  have hwait : s.admin.engine.isWaitSlot = false := by rw [he]; rfl
  cases reply with
  | answer status result => exact keeps_handAdminDone h status result hidle hwait
  | write addr data =>
    refine ⟨queuesSound_same rfl, fun hs => ?_⟩
    obtain ⟨hd, hn⟩ := hs.inHand hidle hwait
    exact adminSound_setEngine (s := writeBuffer addr data s) nofun rfl hd hn
  | drain q result =>
    refine ⟨queuesSound_same rfl, fun hs => ?_⟩
    obtain ⟨hd, hn⟩ := hs.inHand hidle hwait
    exact adminSound_setEngine nofun rfl hd hn

/-- RESETTING ends with the engine idle, as every reset has left it. -/
theorem keeps_endIfDrained (s : State) : s.Keeps s.endIfDrained := by
  unfold State.endIfDrained
  split
  · next h =>
    refine ⟨queuesSound_same rfl, fun hs => ?_⟩
    obtain ⟨he, hn⟩ := hs.idle (by rw [h.1]; decide)
    exact adminSound_atRest he hn nofun nofun
  · exact .refl s

theorem calm_dropRead (s : State) (who : Requester) : s.Calm (s.dropRead who) := (State.Calm.refl s).beside rfl rfl rfl rfl

theorem calm_dropWrite (s : State) (p : WritePurpose → Bool) : s.Calm (s.dropWrite p) :=
  (State.Calm.refl s).beside rfl rfl rfl rfl

theorem keeps_completeCommandRead (id : BitVec 16) (c : Command) (s : State) : s.Keeps (completeCommandRead id c s) := by
  unfold completeCommandRead
  split
  · exact .refl s
  · have h1 := calm_dropRead s .admin
    generalize s.dropRead .admin = s1 at h1
    dsimp only
    split
    · exact h1.keeps.trans (keeps_endIfDrained s1)
    · split
      · next pos he =>
        have heffect := (State.Calm.refl s1).commandEffect id c
        exact (h1.trans heffect).keeps.trans (keeps_settleReply _ _ (heffect.engine.trans he))
      all_goals exact h1.keeps

theorem keeps_completeBuffer (error : Bool) (s : State) : s.Keeps (completeBuffer error s) := by
  unfold completeBuffer
  split
  · exact .refl s
  · have h1 := calm_dropWrite s WritePurpose.isBuffer
    generalize s.dropWrite WritePurpose.isBuffer = s1 at h1
    dsimp only
    split
    · exact h1.keeps.trans (keeps_endIfDrained s1)
    · split
      · next he => exact h1.keeps.trans (keeps_handAdminDone _ _ _ (by rw [he]; exact nofun) (by rw [he]; rfl))
      all_goals exact h1.keeps

/-! ## Releases (R142, R144) -/

/-- The write of a report into the next slot of a queue (R138). -/
def entryWrite (q : QueueId) (c : ReportQueue) (r : Report) : PendingWrite :=
  { addr := slotAddr c, data := encodeEntry c.pass c.seq r, purpose := .entry q c.write c.seq }

/-- The OVERFLOW report of a queue as it stands (R154). -/
def overflowReport (q : QueueId) (s : State) : Report :=
  { source := BitVec.ofNat 8 q.val, tag := 0, time := s.time, body := .overflow (s.rq q).counts }

/-- The OVERFLOW entry takes the next slot and clears the counts (R142). -/
theorem postOverflow_eq (q : QueueId) (s : State) : postOverflow q s =
    (s.setRq q { claimSlot (s.rq q) with counts := OverflowCounts.zero }).issueWrite
      (entryWrite q (s.rq q) (overflowReport q s)) := by
  unfold postOverflow
  dsimp only
  rw [rq_postReport_self, ← State.setRq_setRq s q (claimSlot (s.rq q))]
  rfl

section Moved

variable (q : QueueId) (r : Nat) (s : State)

/-- A release that ends an overflow: one slot is claimed, the counts are cleared and one entry write goes out. -/
theorem moveRelease_overflow (h : (s.rq q).EndsOverflow q r) : moveRelease q r s =
    (s.setRq q { claimSlot ((s.rq q).releasedTo r) with counts := OverflowCounts.zero }).issueWrite
      (entryWrite q ((s.rq q).releasedTo r) (overflowReport q s)) := by
  have hmove : moveRelease q r s = postOverflow q (s.setRq q ((s.rq q).releasedTo r)) := if_pos h
  have hreport : overflowReport q (s.setRq q ((s.rq q).releasedTo r)) = overflowReport q s := by
    rw [overflowReport, State.rq_setRq_self]
    rfl
  rw [hmove, postOverflow_eq, State.rq_setRq_self, hreport, State.setRq_setRq]

theorem moveRelease_plain (h : ¬(s.rq q).EndsOverflow q r) : moveRelease q r s = s.setRq q ((s.rq q).releasedTo r) := if_neg h

/-- A release moves one table entry and the link's writes; nothing else changes. -/
theorem moveRelease_beside : ∃ c link, moveRelease q r s = { s.setRq q c with link := link } := by
  by_cases h : (s.rq q).EndsOverflow q r
  · exact ⟨_, _, moveRelease_overflow q r s h⟩
  · exact ⟨_, _, moveRelease_plain q r s h⟩

theorem moveRelease_fields : (moveRelease q r s).waiting = s.waiting ∧ (moveRelease q r s).admin = s.admin
    ∧ (moveRelease q r s).port = s.port ∧ (moveRelease q r s).tracks = s.tracks ∧ (moveRelease q r s).lines = s.lines
    ∧ (moveRelease q r s).trips = s.trips := by
  obtain ⟨c, link, e⟩ := moveRelease_beside q r s
  rw [e]
  exact ⟨rfl, rfl, rfl, rfl, rfl, rfl⟩

end Moved

theorem moveRelease_rq_ne {q p : QueueId} (r : Nat) (s : State) (h : p ≠ q) : (moveRelease q r s).rq p = s.rq p := by
  obtain ⟨c, link, e⟩ := moveRelease_beside q r s
  rw [e]
  exact State.rq_setRq_ne s c h

/-- The table entry after a release of a sound queue is sound: the OVERFLOW entry goes out as soon as there is room for it (R142). -/
theorem queuesSound_moveRelease {s : State} {q : QueueId} {r : Nat} (hp : (s.rq q).state ≠ .absent) (hr : r < (s.rq q).size)
    (hs : s.queuesSound) : (moveRelease q r s).queuesSound := by
  intro p
  by_cases e : p = q
  swap
  · rw [moveRelease_rq_ne r s e]
    exact hs p
  subst e
  by_cases hover : (s.rq p).EndsOverflow p r
  · rw [moveRelease_overflow p r s hover, State.issueWrite_rq, State.rq_setRq_self]
    have hcleared := (hs p).releasedTo OverflowCounts.zero hp hr fun ho => by simp [overflowPending] at ho
    exact hcleared.claimSlot (Nat.one_le_of_lt hover.2)
  · rw [moveRelease_plain p r s hover, State.rq_setRq_self]
    exact (hs p).releasedTo (s.rq p).counts hp hr fun ho => Nat.le_of_not_lt fun hlt => hover ⟨ho, hlt⟩

/-- A free slot of RQ0 takes the waiting ADMIN-DONE; without one it still waits (R140, R173). -/
theorem adminSound_postWaiting {s : State} (hs : s.engineSound) : (postWaiting s).adminSound := by
  obtain ⟨hready, hrun, hhalted, hwait⟩ := id hs
  unfold postWaiting
  split
  · next hn => exact adminSound_iff.mpr ⟨hs, by simp [hn]⟩
  · next r hr =>
    have hslot : s.admin.engine.isWaitSlot = true := hwait.mp (by rw [hr]; rfl)
    split
    · dsimp only
      split
      · next h he =>
        have hd : s.port.dev = .ready := hready fun e => by rw [e] at hslot; cases hslot
        exact adminSound_finishCommand h.pos hd rfl
      all_goals
        next he =>
          have he : s.admin.engine = _ := he
          rw [he] at hslot
          cases hslot
    · next hfree => exact adminSound_iff.mpr ⟨hs, fun _ => Nat.lt_one_iff.mp (Nat.lt_of_not_le hfree)⟩

theorem queuesSound_postWaiting {s : State} (hs : s.queuesSound) : (postWaiting s).queuesSound := by
  unfold postWaiting
  split
  · exact hs
  · next r _ =>
    split
    · next hfree =>
      have hposted : (postReport 0 r { s with waiting := none }).queuesSound :=
        queuesSound_postReport (s := { s with waiting := none }) r hfree hs
      dsimp only
      split
      · exact queuesSound_same (finishCommand_rqs _ _) hposted
      all_goals exact hposted
    · exact hs

/-- The check of a release, spelled out (R144). -/
theorem releaseOk_iff {c : ReportQueue} {r : Nat} : releaseOk c r = true ↔
    c.state ≠ .absent ∧ c.closing = false ∧ r < c.size ∧ ringDist c.size r c.release ≤ outstanding c := by
  simp [releaseOk, and_assoc]

theorem keeps_releaseSlots (q : QueueId) (index : BitVec 16) (s : State) : s.Keeps (releaseSlots q index s) := by
  unfold releaseSlots
  dsimp only
  split
  · next hok =>
    obtain ⟨hp, -, hr, -⟩ := releaseOk_iff.mp hok
    split
    · exact .refl s
    · have hqueues := queuesSound_moveRelease (s := s) hp hr
      obtain ⟨hwaiting, hadmin, hport, -⟩ := moveRelease_fields q index.toNat s
      have hsame : (moveRelease q index.toNat s).engineSound ↔ s.engineSound := by
        rw [State.engineSound, hwaiting, hadmin, hport, ← State.engineSound]
      split
      · exact ⟨fun hs => queuesSound_postWaiting (hqueues hs), fun hs =>
          adminSound_postWaiting (hsame.mpr (adminSound_iff.mp hs).1)⟩
      · next hq =>
        refine ⟨hqueues, fun hs => ?_⟩
        obtain ⟨hengine, hfull⟩ := adminSound_iff.mp hs
        refine adminSound_iff.mpr ⟨hsame.mpr hengine, fun hw => ?_⟩
        rw [moveRelease_rq_ne _ _ (Ne.symm hq)]
        exact hfull (hwaiting ▸ hw)
  · exact ((State.Calm.refl s).queueEvent _ _).keeps

/-! ## Entry writes (R147, R151) -/

/-- A drained queue becomes ABSENT, and the DELETE-RQ that waits for it is answered (R151). -/
theorem keeps_closeIfDrained (q : QueueId) (s : State) : s.Keeps (closeIfDrained q s) := by
  have habsent := (State.Calm.refl s).makeAbsent q
  unfold closeIfDrained
  split
  · dsimp only
    split
    · next he =>
      split
      · exact habsent.keeps.trans (keeps_handAdminDone _ _ _ (by rw [he]; exact nofun) (by rw [he]; rfl))
      · exact habsent.keeps
    all_goals exact habsent.keeps
  · exact .refl s

/-- An entry into FAULTED drops what is in hand and what waits, and idles the delay timers (R163, R175, R187). -/
theorem keeps_enterFaulted (cause : FaultCause) (s : State) : s.Keeps (enterFaulted cause s) := by
  by_cases hlive : s.live
  · obtain ⟨hport, hadmin, hwaiting, -⟩ := enterFaulted_fields (cause := cause) hlive
    refine ⟨fun hs q => ?_, fun _ => adminSound_atRest (by rw [hadmin]) hwaiting (by rw [hport]; exact nofun)
      (by rw [hport]; exact nofun)⟩
    rw [rq_enterFaulted hlive]
    exact (ReportQueue.Calm.idled q (s.rq q)).sound (hs q)
  · have hsame : enterFaulted cause s = s := if_neg hlive
    rw [hsame]
    exact .refl s

theorem keeps_completeEntry (q : QueueId) (s : State) : s.Keeps (completeEntry q s) := by
  unfold completeEntry
  split
  · exact .refl s
  · have h1 := calm_dropWrite s (WritePurpose.isEntryOf q)
    generalize s.dropWrite (WritePurpose.isEntryOf q) = s1 at h1
    have h2 := h1.lowerInFlight q
    dsimp only
    split
    · exact h1.keeps.trans (keeps_endIfDrained s1)
    · refine State.Keeps.trans ?_ (keeps_closeIfDrained q _)
      split
      · next hp => exact (h2.countEntry q hp.2).keeps
      · exact h2.keeps

theorem keeps_failEntry (q : QueueId) (s : State) : s.Keeps (failEntry q s) := by
  unfold failEntry
  split
  · exact .refl s
  · have h1 := calm_dropWrite s (WritePurpose.isEntryOf q)
    generalize s.dropWrite (WritePurpose.isEntryOf q) = s1 at h1
    have h2 := h1.lowerInFlight q
    dsimp only
    split
    · exact h1.keeps.trans (keeps_endIfDrained s1)
    · generalize lowerInFlight q s1 = s2 at h2
      split
      · exact h2.keeps.trans (keeps_closeIfDrained q s2)
      · split
        · exact h2.keeps.trans (keeps_enterFaulted _ s2)
        · split
          · next ha =>
            have hfailed := h2.setRq q (.failed (by rw [ha]; decide))
            exact (hfailed.queueEvent _ _).keeps.trans (keeps_closeIfDrained q _)
          · exact h2.keeps.trans (keeps_closeIfDrained q s2)

/-! ## Reads and retire-word writes -/

theorem keeps_completeStepRead (t : TrackId) (data : Vector StepRecord 8) (s : State) : s.Keeps (completeStepRead t data s) := by
  unfold completeStepRead
  split
  · exact .refl s
  · have h1 := calm_dropRead s (.track t)
    generalize s.dropRead (.track t) = s1 at h1
    dsimp only
    split
    · exact h1.keeps.trans (keeps_endIfDrained s1)
    · split
      · exact h1.keeps
      · split
        · exact (h1.setTrack t _).keeps
        · split
          · exact ((State.Calm.onTrack s t).takeNext ((h1.setTrack t _).setTrack t _)).keeps
          · exact (h1.setTrack t _).keeps

theorem keeps_failStepRead (t : TrackId) (s : State) : s.Keeps (failStepRead t s) := by
  unfold failStepRead
  split
  · exact .refl s
  · have h1 := calm_dropRead s (.track t)
    generalize s.dropRead (.track t) = s1 at h1
    dsimp only
    split
    · exact h1.keeps.trans (keeps_endIfDrained s1)
    · split
      · exact h1.keeps
      · split
        · exact (h1.setTrack t _).keeps
        · exact ((State.Calm.onTrack s t).forceSafe _ (h1.setTrack t _)).keeps

theorem keeps_failCommandRead (s : State) : s.Keeps (failCommandRead s) := by
  unfold failCommandRead
  split
  · exact .refl s
  · have h1 := calm_dropRead s .admin
    generalize s.dropRead .admin = s1 at h1
    dsimp only
    split
    · exact h1.keeps.trans (keeps_endIfDrained s1)
    · split
      · exact h1.keeps.trans (keeps_enterFaulted _ s1)
      all_goals exact h1.keeps

theorem keeps_timeoutRead (who : Requester) (s : State) : s.Keeps (timeoutRead who s) := by
  unfold timeoutRead
  split
  · exact .refl s
  · split
    · cases who with
      | track t => exact keeps_failStepRead t s
      | admin => exact keeps_failCommandRead s
    · exact .refl s

theorem keeps_completeRetireWord (t : TrackId) (error : Bool) (s : State) : s.Keeps (completeRetireWord t error s) := by
  have C := State.Calm.onTrack s t
  unfold completeRetireWord
  split
  · exact .refl s
  · have h1 := calm_dropWrite s (WritePurpose.isRetireWordOf t)
    generalize s.dropWrite (WritePurpose.isRetireWordOf t) = s1 at h1
    have h2 : s.Calm (s1.modTrack t fun c => { c with retireWrite := none }) := h1.setTrack t _
    dsimp only
    split
    · exact h1.keeps.trans (keeps_endIfDrained s1)
    · split
      · exact h1.keeps
      · split
        · unfold afterEarlierWrite
          dsimp only
          split
          · exact (C.writeRetireWord h2).keeps
          · exact h2.keeps
        · split
          · exact (C.forceSafe _ h2).keeps
          · split
            · exact (C.writeRetireWord h2).keeps
            · exact h2.keeps

/-! ## Timed events, samples and issues -/

theorem calm_reachStart (t : TrackId) (s : State) : s.Calm (reachStart t s) := by
  unfold reachStart
  split
  · split
    · exact (State.Calm.onTrack s t).startTrack _ (.refl s)
    · exact .refl s
  · exact .refl s

theorem calm_expireDue (t : TrackId) (s : State) : s.Calm (expireDue t s) := by
  unfold expireDue
  split
  · split
    · exact (State.Calm.onTrack s t).dueExpired _ (.refl s)
    · exact .refl s
  · exact .refl s

theorem calm_expireTimeout (t : TrackId) (s : State) : s.Calm (expireTimeout t s) := by
  unfold expireTimeout
  split
  · split
    · exact (State.Calm.onTrack s t).timeoutExpired _ (.refl s)
    · exact .refl s
  · exact .refl s

theorem calm_expireHold (t : TrackId) (s : State) : s.Calm (expireHold t s) := by
  unfold expireHold
  split
  · exact (State.Calm.onTrack s t).enterSafe _ _ (.refl s)
  · exact .refl s

theorem calm_samplePin (l : LineId) (level : Level) (s : State) : s.Calm (samplePin l level s) := by
  unfold samplePin
  dsimp only
  have h1 : s.Calm { s with pins := s.pins.set l level } := (State.Calm.refl s).beside rfl rfl rfl rfl
  split
  · exact h1
  · exact (State.Calm.inputClosed s).rawChanged l level (h1.beside rfl rfl rfl rfl)

theorem calm_expireWindow (l : LineId) (s : State) : s.Calm (expireWindow l s) := by
  unfold expireWindow
  split
  · split
    · exact (State.Calm.inputClosed s).windowExpired l _ (.refl s)
    · exact .refl s
  · exact .refl s

theorem calm_unmaskVector (v : VectorId) (s : State) : s.Calm (unmaskVector v s) := by
  have h1 : ∀ link, s.Calm { s with link := link } := fun _ => (State.Calm.refl s).beside rfl rfl rfl rfl
  unfold unmaskVector
  dsimp only
  split
  · exact (h1 _).sendMessage v
  · exact h1 _

/-- The engine reads a command only when it has none in hand, in READY (R167). -/
theorem keeps_issueGrant (s : State) : s.Keeps (issueGrant s) := by
  unfold issueGrant
  split
  · exact .refl s
  · split
    · exact ((State.Calm.refl s).beside (s' := issueStepRead _ s) rfl rfl rfl rfl).keeps
    · next hgrant =>
      have hwait : waitingForCommand s = true := by
        unfold grant at hgrant
        split at hgrant
        · cases hgrant
        · split at hgrant
          · assumption
          · simp at hgrant
      simp only [waitingForCommand, permitted, Bool.and_eq_true, decide_eq_true_eq] at hwait
      obtain ⟨⟨he, hd, -⟩, -⟩ := hwait
      refine ⟨queuesSound_same rfl, fun hs => ?_⟩
      exact adminSound_setEngine nofun rfl hd (hs.waiting_none (by rw [he]; rfl))
    · exact .refl s

/-! ## The device states (R182 to R184) -/

/-- RUN validation leaves a ring of RQ0 that is sound (R182). -/
theorem startedRq0_sound {p : Port} (h : validateRun p = .none) : (startedRq0 p).sound 0 := by
  unfold validateRun at h
  split at h
  · cases h
  · split at h
    · cases h
    · split at h
      · cases h
      · next hsize =>
        split at h
        · cases h
        · next hbase =>
          exact emptyRing_sound ((ringSizeOk_iff (by decide)).mp (by simpa using hsize)) (by simpa using hbase)
            (Moderation.uncounted_sound rfl rfl (by decide) (by decide))

theorem keeps_leaveIdle {s : State} (hd : s.port.dev = .idle) (h : validateRun s.port = .none) : s.Keeps (leaveIdle s) where
  queues hs q := by
    change ((s.setRq 0 (startedRq0 s.port)).rq q).sound q
    rw [State.rq_setRq]
    split
    · next e => exact e ▸ startedRq0_sound h
    · exact hs q
  admin hs := by
    obtain ⟨-, hn⟩ := hs.idle (by rw [hd]; decide)
    exact adminSound_idle rfl hn (fun _ => rfl) nofun

/-- The run request and the device state move together, once the engine has nothing in hand (R184). -/
theorem keeps_writeRun (run : Bool) (s : State) : s.Keeps (writeRun run s) := by
  unfold writeRun
  split
  · next hd =>
    have rests : ∀ p : Port, p.dev = .idle → s.Keeps { s with port := p } := fun p hp => by
      refine ⟨queuesSound_same rfl, fun hs => ?_⟩
      obtain ⟨he, hn⟩ := hs.idle (by rw [hd]; decide)
      exact adminSound_atRest he hn (fun h => absurd (hp.symm.trans h) (by decide)) fun h => absurd (hp.symm.trans h) (by decide)
    split
    · split
      · next hv => exact keeps_leaveIdle hd hv
      · exact rests _ hd
    · exact rests _ hd
  · next hd =>
    split
    · refine ⟨queuesSound_same rfl, fun hs => ?_⟩
      obtain ⟨hready, -, -, hrest⟩ := hs
      exact ⟨hready, fun _ => nofun, fun h => absurd (hd.symm.trans h) (by decide), hrest⟩
    · split
      · exact .refl s
      · split
        · next he =>
          exact ⟨queuesSound_same rfl, fun hs =>
            adminSound_idle he (hs.waiting_none (by rw [he]; rfl)) nofun fun _ => rfl⟩
        · next he =>
          refine ⟨queuesSound_same rfl, fun hs => ?_⟩
          obtain ⟨hready, -, -, hrest⟩ := hs
          exact ⟨hready, fun _ _ => he, fun _ => rfl, hrest⟩
  · next hd =>
    split
    · refine ⟨queuesSound_same rfl, fun hs => ?_⟩
      obtain ⟨he, hn⟩ := hs.idle (by rw [hd]; decide)
      exact adminSound_idle he hn (fun _ => rfl) nofun
    · exact .refl s
  · exact .refl s
  · exact .refl s

/-! ## Posts, releases and register writes -/

theorem calm_writePost (selector : BitVec 4) (index : BitVec 16) (s : State) : s.Calm (writePost selector index s) := by
  have refused := (State.Calm.refl s).queueEvent (selector.setWidth 8) (.postRefused index)
  unfold writePost
  dsimp only
  split
  · exact .refl s
  · split
    · split
      · exact ⟨rfl, rfl, rfl, rfl, fun q => .refl q _⟩
      · exact refused
    · split
      · split
        · exact (State.Calm.refl s).setTrack _ _
        · exact refused
      · exact refused

theorem keeps_writeRlse (queue : BitVec 4) (index : BitVec 16) (s : State) : s.Keeps (writeRlse queue index s) := by
  unfold writeRlse
  split
  · exact .refl s
  · split
    · exact keeps_releaseSlots _ _ s
    · exact ((State.Calm.refl s).queueEvent _ _).keeps

theorem writeQueueRegister_dev (offset value : BitVec 32) (p : Port) :
    (writeQueueRegister offset value p).dev = p.dev ∧ (writeQueueRegister offset value p).run = p.run := by
  unfold writeQueueRegister
  split <;> exact ⟨rfl, rfl⟩

/-! ## Resets (R189, R190) -/

theorem queuesSound_absent {s : State} (h : ∀ q, s.rq q = ReportQueue.absent) : s.queuesSound := fun q => by
  rw [h q]
  exact ReportQueue.absent_sound q

theorem keeps_powerOn (s : State) : s.Keeps (powerOn s) :=
  ⟨fun _ => queuesSound_absent (rq_powerOn s), fun _ => adminSound_atRest rfl rfl nofun nofun⟩

theorem keeps_resetBlocks (s : State) : s.Keeps (resetBlocks s) := by
  rw [resetBlocks_eq]
  exact ⟨fun _ => queuesSound_absent fun q => by simp [State.rq], fun _ => adminSound_atRest rfl rfl nofun nofun⟩

theorem calm_abandonUncarried (s : State) : s.Calm (abandonUncarried s) := by
  unfold abandonUncarried
  split
  · exact .refl s
  · exact (State.Calm.refl s).beside rfl rfl rfl rfl

theorem calm_abandonAll (s : State) : s.Calm (abandonAll s) := (State.Calm.refl s).beside rfl rfl rfl rfl

theorem keeps_softReset (s : State) : s.Keeps (softReset s) := by
  unfold softReset
  split
  · exact .refl s
  · exact ((keeps_resetBlocks s).trans (calm_abandonUncarried _).keeps).trans (keeps_endIfDrained _)

theorem keeps_hardReset (s : State) : s.Keeps (hardReset s) := by
  unfold hardReset
  split
  · have hlatch : s.Calm { s with port := { s.port with timh := 0 } } := ⟨rfl, rfl, rfl, rfl, fun q => .refl q _⟩
    exact (hlatch.trans (calm_abandonAll _)).keeps.trans (keeps_endIfDrained _)
  · exact ((keeps_resetBlocks s).trans (calm_abandonAll _).keeps).trans (keeps_endIfDrained _)

theorem keeps_writeRegister (offset : BitVec 32) (width : AccessWidth) (value : BitVec 32) (s : State) :
    s.Keeps (writeRegister offset width value s) := by
  unfold writeRegister
  split
  · exact .refl s
  · exact .refl s
  · split
    · split
      · exact .refl s
      · split
        · exact keeps_softReset s
        · exact keeps_writeRun _ s
    · split
      · exact (calm_writePost _ _ s).keeps
      · split
        · exact keeps_writeRlse _ _ s
        · split
          · obtain ⟨hd, hr⟩ := writeQueueRegister_dev offset value s.port
            have hcalm : s.Calm { s with port := writeQueueRegister offset value s.port } := ⟨hd, hr, rfl, rfl, fun q => .refl q _⟩
            exact hcalm.keeps
          · exact .refl s

end Sys2Proof.Machine
end

section
/-!
CERTIFICATE. Every step keeps the report queues sound (R133, R135, R142, R155) and the admin engine in accord with the device state and
the waiting ADMIN-DONE (R140, R167, R173, R175, R184).
-/

namespace Sys2Proof.Machine

/-- Every command keeps the two invariants of the report queues and the admin engine. -/
theorem State.Keeps.exec {c : Instr} {s t : State} (hx : exec c s = .next t) : s.Keeps t := by
  have takes : ∀ id x, s.Keeps (completeCommandRead id x s) := fun id x => keeps_completeCommandRead id x s
  cases c <;> (have e := Host.Outcome.next.inj hx; subst e)
  case powerOn => exact keeps_powerOn s
  case portReset => exact keeps_hardReset s
  case ctrlReset run => exact keeps_softReset s
  case ctrlRun run => exact keeps_writeRun run s
  case post selector index => exact (calm_writePost selector index s).keeps
  case rlse queue index => exact keeps_writeRlse queue index s
  case timlRead => exact (⟨rfl, rfl, rfl, rfl, fun q => .refl q _⟩ : s.Calm (readTiml s)).keeps
  case registerWrite offset width value => exact keeps_writeRegister offset width value s
  case readIssue => exact keeps_issueGrant s
  case stepReadCompletion k data => exact keeps_completeStepRead k data s
  case stepReadError k => exact keeps_failStepRead k s
  case readTimeout who => exact keeps_timeoutRead who s
  case adminReadCompletion record => exact takes _ _
  case unknownOpcode id opcode =>
    split
    · exact .refl s
    · exact takes id _
  case adminReadError => exact keeps_failCommandRead s
  case bufferWriteCompletion error => exact keeps_completeBuffer error s
  case startTimeReached k => exact (calm_reachStart k s).keeps
  case dueTimerExpiry k => exact (calm_expireDue k s).keeps
  case timeoutTimerExpiry k => exact (calm_expireTimeout k s).keeps
  case holdTimerExpiry k => exact (calm_expireHold k s).keeps
  case retireWordWriteDone k => exact keeps_completeRetireWord k false s
  case retireWordWriteError k => exact keeps_completeRetireWord k true s
  case rawChange l level => exact (calm_samplePin l level s).keeps
  case windowExpiry l => exact (calm_expireWindow l s).keeps
  case entryWriteCompletion q => exact keeps_completeEntry q s
  case entryWriteError q => exact keeps_failEntry q s
  case delayTimerExpiry q =>
    split
    · exact ((State.Calm.refl s).sendFor q).keeps
    · exact .refl s
  case vectorUnmask v => exact (calm_unmaskVector v s).keeps
  case vectorMask v =>
    have hmask : ∀ link, s.Calm { s with link := link } := fun _ => (State.Calm.refl s).beside rfl rfl rfl rfl
    exact (hmask _).keeps
  all_goals exact takes _ _

/-- A tick moves the time, the sampler and the queue of commands alone. -/
theorem calm_tick (s : State) : s.Calm (tick s) := by
  rw [tick_eq]
  exact (State.Calm.refl s).beside rfl rfl rfl rfl

/-- The front command or a tick keeps the two invariants. -/
theorem State.Keeps.step {s t : State} (hx : step s = .next t) : s.Keeps t := by
  unfold Machine.step at hx
  split at hx
  · next c rest _ =>
    have hfront : s.Calm { s with pending := rest } := (State.Calm.refl s).beside rfl rfl rfl rfl
    exact hfront.keeps.trans (State.Keeps.exec hx)
  · exact Host.Outcome.next.inj hx ▸ (calm_tick s).keeps

/-- Settles O54: an entry changes calmly, by a claimed slot, by a release or by a reset, and each keeps it sound (`State.Keeps.step`). -/
theorem stepKeepsQueues : Obligations.StepKeepsQueues := fun _ _ h hx => (State.Keeps.step hx).queues h

/-- Settles O58: only an answer, a release, the run request, a fetch and the resets move the engine or what waits, and each keeps them in
accord (`State.Keeps.step`). -/
theorem stepKeepsAdminEngine : Obligations.StepKeepsAdminEngine := fun _ _ h hx => (State.Keeps.step hx).admin h

end Sys2Proof.Machine
end

section
/-!
CERTIFICATE. What becomes of a report that is handed (R136 to R138, R141), and of the answer of a command (R140, R152, R171, R173).
-/

namespace Sys2Proof.Machine

/-! ## The decision (R137) -/

section Decision

variable {q : QueueId} {s : State}

theorem decision_dropped (h : s.port.dev = .faulted ∨ (s.rq q).state = .absent ∨ (s.rq q).closing = true) :
    s.decision q = .dropped := by
  rw [decision_eq, if_pos h]

variable (h : ¬(s.port.dev = .faulted ∨ (s.rq q).state = .absent ∨ (s.rq q).closing = true))

include h

theorem decision_posted (ha : (s.rq q).state = .active)
    (hroom : reserve q < freeSlots (s.rq q) ∧ (s.rq q).counts = OverflowCounts.zero) : s.decision q = .posted := by
  rw [decision_eq, if_neg h, if_pos ⟨ha, hroom⟩]

theorem decision_counted (hlost : (s.rq q).state = .failed
    ∨ ¬(reserve q < freeSlots (s.rq q) ∧ (s.rq q).counts = OverflowCounts.zero)) : s.decision q = .counted := by
  rw [decision_eq, if_neg h, if_neg fun ⟨ha, hroom⟩ => hlost.elim (fun hf => absurd (ha.symm.trans hf) (by decide)) (absurd hroom)]

end Decision

/-- The writes in flight after a posted report end with its entry write. -/
theorem writes_postReport (q : QueueId) (r : Report) (s : State) :
    (postReport q r s).link.writes = s.link.writes ++ [entryWrite q (s.rq q) r] := rfl

/-- A count of lost reports stands still at 65535 (R141). -/
theorem satInc_word (x : BitVec 16) : satInc x = if x = 65535 then 65535 else x + 1 := by
  have hones : BitVec.allOnes 16 = 65535 := rfl
  unfold satInc
  rw [hones]
  split
  · assumption
  · rfl

/-- Settles O12: the three decisions by their conditions, the entry of a posted report as `claimSlot` leaves it, and the class of each
kind of report. -/
theorem reportDecision : Obligations.ReportDecision := by
  refine ⟨fun q r s => ?decision, fun c => ?classes⟩
  case decision =>
    intro c room dropped
    refine ⟨fun hd => handReport_dropped r (decision_dropped hd),
      fun hd hlost => handReport_counted r (decision_counted hd hlost),
      fun hd ha hroom => ⟨postReport q r s, handReport_posted r (decision_posted hd ha hroom), writes_postReport q r s, ?_⟩⟩
    rw [rq_postReport_self]
    exact ⟨rfl, rfl, rfl, fun hmeet => if_pos hmeet, rfl, rfl, fun p hp => rq_postReport_ne r s hp, rfl⟩
  case classes =>
    simp only [OverflowCounts.lose, satInc_word, implies_true, and_self]

/-! ## The answer of a command -/

/-- A finished command: the taken index, the engine, and HALTED for a withdrawn run request (R173, R184). -/
theorem finishCommand_eq (pos : Nat) (s : State) : finishCommand pos s = { s with
    admin := { s.admin with taken := s.admin.after pos, engine := .idleWait }
    port := { s.port with dev := if s.port.dev = .ready ∧ s.port.run = false then .halted else s.port.dev } } := by
  unfold finishCommand
  dsimp only
  split <;> rfl

/-- Settles O28: posted, waiting or dropped, by the device state and the free slots of RQ0. -/
theorem adminDoneHanded : Obligations.AdminDoneHanded := by
  intro h status result s after r
  refine ⟨fun hd hf => ⟨_, handAdminDone_posts h status result hd hf, ?_⟩, fun hd hf => handAdminDone_waits h status result hd hf,
    fun hd => handAdminDone_faulted h status result hd⟩
  have hclaimed := rq_postReport_self 0 (adminDoneReport h status result s.admin) s
  rw [finishCommand_eq]
  exact ⟨rfl, rfl, rfl, congrArg ReportQueue.write hclaimed, congrArg ReportQueue.seq hclaimed,
    fun q hq => rq_postReport_ne (adminDoneReport h status result s.admin) s hq, rfl⟩

end Sys2Proof.Machine
end

section
/-!
CERTIFICATE. A release is checked, moves the release index and ends an overflow (R142, R144, R148, R186); of RQ0 it posts the ADMIN-DONE
that waits (R140, R173).
-/

namespace Sys2Proof.Machine

/-! ## RLSE (R186) -/

section Rlse

variable {s : State} (index : BitVec 16)

theorem writeRlse_ignored {queue : BitVec 4} (h : ¬s.live) : writeRlse queue index s = s := by
  simp [writeRlse, mt taking_iff.mp h]

theorem writeRlse_above {queue : BitVec 4} (h : s.live) (hq : 8 ≤ queue.toNat) : writeRlse queue index s =
    handReport 0 { source := queue.setWidth 8, tag := 0, time := s.time, body := .releaseRefused index } s := by
  unfold writeRlse queueEvent
  rw [if_neg (by simp [taking_iff.mpr h]), dif_neg (by omega)]

theorem writeRlse_queue (q : QueueId) (h : s.live) : writeRlse (BitVec.ofNat 4 q.val) index s = releaseSlots q index s := by
  have hval : (BitVec.ofNat 4 q.val).toNat = q.val := by
    rw [BitVec.toNat_ofNat]
    exact Nat.mod_eq_of_lt (by omega)
  have hlt : (BitVec.ofNat 4 q.val).toNat < 8 := by rw [hval]; exact q.isLt
  have hq : (⟨(BitVec.ofNat 4 q.val).toNat, hlt⟩ : QueueId) = q := Fin.ext hval
  unfold writeRlse
  rw [if_neg (by simp [taking_iff.mpr h]), dif_pos hlt, hq]

end Rlse

/-! ## The check and the move (R144) -/

section Release

variable {q : QueueId} {index : BitVec 16} {s : State}

theorem releaseSlots_refused (h : ¬releaseOk (s.rq q) index.toNat = true) : releaseSlots q index s =
    handReport 0 { source := BitVec.ofNat 8 q.val, tag := 0, time := s.time, body := .releaseRefused index } s := if_neg h

variable (h : releaseOk (s.rq q) index.toNat = true)

include h

/-- A release without advance changes nothing. -/
theorem releaseSlots_still (hd : ringDist (s.rq q).size index.toNat (s.rq q).release = 0) : releaseSlots q index s = s :=
  (if_pos h).trans (if_pos hd)

/-- A release with an advance; of RQ0 it then posts what waits. -/
theorem releaseSlots_moves (hd : ringDist (s.rq q).size index.toNat (s.rq q).release ≠ 0) : releaseSlots q index s =
    if q = 0 then postWaiting (moveRelease q index.toNat s) else moveRelease q index.toNat s :=
  (if_pos h).trans (if_neg hd)

end Release

theorem postWaiting_none {s : State} (h : s.waiting = none) : postWaiting s = s := by
  unfold postWaiting
  rw [h]

/-- With a free slot of RQ0 the waiting ADMIN-DONE is posted and its command is finished (R140, R173). -/
theorem postWaiting_posts {s : State} {r : Report} {h : InHand} (hw : s.waiting = some r) (he : s.admin.engine = .waitSlot h)
    (hf : 1 ≤ freeSlots (s.rq 0)) : postWaiting s = finishCommand h.pos (postReport 0 r { s with waiting := none }) := by
  have hengine : (postReport 0 r { s with waiting := none }).admin.engine = .waitSlot h := he
  unfold postWaiting
  rw [hw]
  dsimp only
  rw [if_pos hf, hengine]

/-- The state after it: nothing waits, the command is finished, and one more slot of RQ0 is claimed. -/
theorem postWaiting_fields {s : State} {r : Report} {h : InHand} (hw : s.waiting = some r) (he : s.admin.engine = .waitSlot h)
    (hd : s.port.dev = .ready) (hf : 1 ≤ freeSlots (s.rq 0)) :
    (postWaiting s).waiting = none
      ∧ (postWaiting s).admin = { s.admin with taken := (h.pos + 1) % s.admin.size, engine := .idleWait }
      ∧ (postWaiting s).port = { s.port with dev := if s.port.run then .ready else .halted }
      ∧ (postWaiting s).link.writes = s.link.writes ++ [entryWrite 0 (s.rq 0) r]
      ∧ (postWaiting s).rq 0 = claimSlot (s.rq 0) ∧ (∀ q, q ≠ 0 → (postWaiting s).rq q = s.rq q)
      ∧ (postWaiting s).tracks = s.tracks ∧ (postWaiting s).lines = s.lines ∧ (postWaiting s).trips = s.trips := by
  rw [postWaiting_posts hw he hf, finishCommand_eq]
  refine ⟨rfl, rfl, ?_, rfl, rq_postReport_self 0 r { s with waiting := none },
    fun q hq => rq_postReport_ne r { s with waiting := none } hq, rfl, rfl, rfl⟩
  have hdev : (if s.port.dev = .ready ∧ s.port.run = false then DevState.halted else s.port.dev)
      = if s.port.run then .ready else .halted := by
    rw [hd]
    cases s.port.run <;> rfl
  exact congrArg (fun dev => { s.port with dev := dev }) hdev

/-- Settles O13: the register by the queue number and the device state, the release by its check, its advance and the overflow. -/
theorem releaseChecked : Obligations.ReleaseChecked := by
  refine ⟨?release, fun queue index s => ⟨fun hl => congrArg Host.Outcome.next (writeRlse_ignored index hl),
    fun hl hq => congrArg Host.Outcome.next (writeRlse_above index hl hq)⟩⟩
  intro q index s hl hwaiting c ok c' due row
  have completes : ∀ {t}, releaseSlots q index s = t → Completes row s t := fun e =>
    congrArg Host.Outcome.next ((writeRlse_queue index q hl).trans e)
  have moves : ok → ringDist c.size index.toNat c.release ≠ 0 → Completes row s (moveRelease q index.toNat s) := fun hok hd => by
    refine completes ((releaseSlots_moves (releaseOk_iff.mpr hok) hd).trans ?_)
    split
    · next hq =>
      obtain ⟨hw, -⟩ := moveRelease_fields q index.toNat s
      exact postWaiting_none (hw.trans (hwaiting.resolve_left (not_not_intro hq)))
    · rfl
  refine ⟨fun hok hd => completes (releaseSlots_still (releaseOk_iff.mpr hok) hd),
    fun hok hd hn => moveRelease_plain q index.toNat s hn ▸ moves hok hd,
    fun hok hd hdue => ⟨_, moveRelease_overflow q index.toNat s hdue ▸ moves hok hd, rfl, ?_⟩,
    fun hn => completes (releaseSlots_refused (mt releaseOk_iff.mp hn))⟩
  rw [State.issueWrite_rq, State.rq_setRq_self]
  exact ⟨rfl, rfl, rfl, rfl, rfl, fun p hp => State.rq_setRq_ne s _ hp, rfl⟩

/-! ## The waiting ADMIN-DONE (R140, R173) -/

/-- Settles O14: the release leaves a free slot, the OVERFLOW entry first where one is due, and `postWaiting_posts` takes the next. -/
theorem releasePostsWaiting : Obligations.ReleasePostsWaiting := by
  intro index r h s hd hw he hok hadvance hfree c overflow next nextPass lost entry
  have hslots : releaseSlots 0 index s = postWaiting (moveRelease 0 index.toNat s) :=
    (releaseSlots_moves hok hadvance).trans (if_pos rfl)
  have completes : Completes (.rlse 0 index) s (postWaiting (moveRelease 0 index.toNat s)) :=
    congrArg Host.Outcome.next ((writeRlse_queue index 0 (.inl hd)).trans hslots)
  have hother : ∀ q, q ≠ 0 → (moveRelease 0 index.toNat s).rq q = s.rq q := fun q hq => moveRelease_rq_ne _ s hq
  obtain ⟨hwaiting, hadmin, hport, htracks, hlines, htrips⟩ := moveRelease_fields 0 index.toNat s
  have leaves := fun hf => postWaiting_fields (hwaiting.trans hw) ((congrArg Admin.engine hadmin).trans he)
    ((congrArg Port.dev hport).trans hd) hf
  rw [hadmin, hport, htracks, hlines, htrips] at leaves
  by_cases hover : overflow
  · have hmoved := moveRelease_overflow 0 index.toNat s hover
    have hrq : (moveRelease 0 index.toNat s).rq 0
        = { claimSlot (c.releasedTo index.toNat) with counts := OverflowCounts.zero } := by
      rw [hmoved, State.issueWrite_rq, State.rq_setRq_self]
    have hroom : 1 ≤ freeSlots ((moveRelease 0 index.toNat s).rq 0) := by
      obtain ⟨-, -, hsize, -⟩ := releaseOk_iff.mp hok
      have htwo : 2 ≤ freeSlots (c.releasedTo index.toNat) := hover.2
      rw [hrq]
      change 1 ≤ freeSlots (claimSlot (c.releasedTo index.toNat))
      rw [freeSlots_claimSlot hsize rfl]
      omega
    obtain ⟨hwaits, hadmin, hport, hwrites, hclaimed, hrest, hblocks⟩ := leaves hroom
    refine ⟨_, completes, hwaits, hadmin, hport, ?_, ?_⟩
    · rw [hwrites, hrq, hmoved, if_pos hover]
      exact List.append_assoc _ _ _
    · rw [hclaimed, hrq]
      simp only [if_pos hover]
      exact ⟨rfl, rfl, by simp [claimSlot, ReportQueue.releasedTo, c, BitVec.add_assoc], rfl, rfl,
        fun q hq => (hrest q hq).trans (hother q hq), hblocks⟩
  · have hmoved := moveRelease_plain 0 index.toNat s hover
    have hrq : (moveRelease 0 index.toNat s).rq 0 = c.releasedTo index.toNat := by rw [hmoved, State.rq_setRq_self]
    obtain ⟨hwaits, hadmin, hport, hwrites, hclaimed, hrest, hblocks⟩ := leaves (by rw [hrq]; exact hfree)
    refine ⟨_, completes, hwaits, hadmin, hport, ?_, ?_⟩
    · rw [hwrites, hrq, hmoved, if_neg hover]
      rfl
    · rw [hclaimed, hrq]
      simp only [if_neg hover]
      exact ⟨rfl, rfl, rfl, rfl, rfl, fun q hq => (hrest q hq).trans (hother q hq), hblocks⟩

end Sys2Proof.Machine
end

section
/-!
CERTIFICATE. The completions of entry writes: a completed one is counted (R145, R156, R157), a failed one fails its queue (R147), and the
last one ends a closing queue (R151).
-/

namespace Sys2Proof.Machine

/-! ## The end of a closing queue (R151) -/

/-- The three ends of an entry write's completion, by the entry as it was before: the queue stays, or it becomes ABSENT and the DELETE-RQ
that waits for it is answered, or with nothing in hand is not (R151, R175). -/
theorem closeIfDrained_ends {q : QueueId} {s : State} {c : ReportQueue} (hc : (s.rq q).closing = c.closing)
    (hi : (s.rq q).inFlight = c.inFlight - 1) :
    (¬(c.closing = true ∧ c.inFlight ≤ 1) → closeIfDrained q s = s)
      ∧ (c.closing = true ∧ c.inFlight ≤ 1 → ∀ h result, s.admin.engine = .executing h q result →
          closeIfDrained q s = handAdminDone h .ok (some result) (s.setRq q ReportQueue.absent))
      ∧ (c.closing = true ∧ c.inFlight ≤ 1 → s.admin.engine = .idleWait → closeIfDrained q s = s.setRq q ReportQueue.absent) := by
  have hlast : (s.rq q).closing = true ∧ (s.rq q).inFlight = 0 ↔ c.closing = true ∧ c.inFlight ≤ 1 := by
    rw [hc, hi]
    exact and_congr_right fun _ => by omega
  refine ⟨fun hn => if_neg (mt hlast.mp hn), fun hl h result he => ?_, fun hl he => ?_⟩
  · have hengine : (makeAbsent q s).admin.engine = .executing h q result := he
    unfold closeIfDrained
    rw [if_pos (hlast.mpr hl)]
    dsimp only
    rw [hengine]
    exact if_pos rfl
  · have hengine : (makeAbsent q s).admin.engine = .idleWait := he
    unfold closeIfDrained
    rw [if_pos (hlast.mpr hl)]
    dsimp only
    rw [hengine]
    rfl

/-! ## A completed entry is counted (R145, R156) -/

/-- The table entry with one write fewer in flight and this moderation context. -/
def ReportQueue.completed (c : ReportQueue) (m : Moderation) : ReportQueue := { c with inFlight := c.inFlight - 1, irq := m }

/-- The state in which an entry write of a queue is over and the queue has this moderation context. -/
def entryOver (q : QueueId) (m : Moderation) (s : State) : State :=
  (s.dropWrite (WritePurpose.isEntryOf q)).setRq q ((s.rq q).completed m)

theorem rq_entryOver (q : QueueId) (m : Moderation) (s : State) : (entryOver q m s).rq q = (s.rq q).completed m :=
  State.rq_setRq_self _ q _

theorem lowerInFlight_dropWrite (q : QueueId) (s : State) :
    lowerInFlight q (s.dropWrite (WritePurpose.isEntryOf q)) = entryOver q (s.rq q).irq s := rfl

theorem setIrq_entryOver (q : QueueId) (m m' : Moderation) (s : State) : (entryOver q m s).setIrq q m' = entryOver q m' s := by
  rw [State.setIrq, rq_entryOver, entryOver, State.setRq_setRq]
  rfl

/-- The state in which a completed entry write is over and has been counted, before a closing queue ends. -/
def entryCounted (q : QueueId) (s : State) : State :=
  if s.port.dev ≠ .faulted then countEntry q (entryOver q (s.rq q).irq s) else entryOver q (s.rq q).irq s

section Counted

variable {q : QueueId} {s : State}

theorem completeEntry_eq (hd : s.port.dev ≠ .resetting) (hw : (s.writeOf (WritePurpose.isEntryOf q)).isSome)
    (hp : (s.rq q).state ≠ .absent) : completeEntry q s = closeIfDrained q (entryCounted q s) := by
  obtain ⟨w, hw⟩ := Option.isSome_iff_exists.mp hw
  have hpresent : ((entryOver q (s.rq q).irq s).rq q).state ≠ .absent := by rw [rq_entryOver]; exact hp
  unfold completeEntry entryCounted
  rw [hw]
  dsimp only
  rw [lowerInFlight_dropWrite, State.dropWrite_port, if_neg hd]
  congr 1
  exact if_congr (and_iff_left hpresent) rfl rfl

/-- In FAULTED, and with interrupts disabled, nothing is counted (R148, R156). -/
theorem entryCounted_uncounted (h : ¬(s.port.dev ≠ .faulted ∧ (s.rq q).irq.enable = true)) :
    entryCounted q s = entryOver q (s.rq q).irq s := by
  unfold entryCounted
  split
  · next hd =>
    rw [countEntry_eq, rq_entryOver]
    have hoff : (s.rq q).irq.enable = false := by simpa [hd] using h
    exact if_pos hoff
  · rfl

variable (h : s.port.dev ≠ .faulted ∧ (s.rq q).irq.enable = true)

include h

theorem entryCounted_below (hn : (s.rq q).irq.unsignalled + 1 ≠ (s.rq q).irq.threshold) :
    entryCounted q s = entryOver q ((s.rq q).irq.incremented s.time) s := by
  rw [entryCounted, if_pos h.1, countEntry_eq, rq_entryOver]
  refine (if_neg (by simp [ReportQueue.completed, h.2])).trans ((if_neg hn).trans ?_)
  exact setIrq_entryOver q _ _ s

theorem entryCounted_reaches (hn : (s.rq q).irq.unsignalled + 1 = (s.rq q).irq.threshold) :
    entryCounted q s = (entryOver q (s.rq q).irq.cleared s).sendMessage (s.rq q).irq.vector := by
  rw [entryCounted, if_pos h.1, countEntry_eq, rq_entryOver]
  refine (if_neg (by simp [ReportQueue.completed, h.2])).trans ((if_pos hn).trans ?_)
  rw [setIrq_entryOver]
  rfl

end Counted

/-- Whatever is counted: one write is over, the table entry has another moderation context, and of the link what was handed to it and the
marks may have changed. -/
theorem entryCounted_shape (q : QueueId) (s : State) : ∃ m out marks, entryCounted q s =
    { entryOver q m s with link := { s.link with
      writes := s.link.writes.eraseP (fun w => w.purpose.isEntryOf q), out := out, marks := marks } } := by
  by_cases h : s.port.dev ≠ .faulted ∧ (s.rq q).irq.enable = true
  · by_cases hn : (s.rq q).irq.unsignalled + 1 = (s.rq q).irq.threshold
    · rw [entryCounted_reaches h hn, sendMessage_eq]
      split
      · exact ⟨_, s.link.out, s.link.marks, rfl⟩
      · split
        · exact ⟨_, s.link.out, _, rfl⟩
        · exact ⟨_, _, s.link.marks, rfl⟩
    · exact ⟨_, s.link.out, s.link.marks, entryCounted_below h hn⟩
  · exact ⟨_, s.link.out, s.link.marks, entryCounted_uncounted h⟩

/-- The three ends of a completed entry write, from the state in which it has been counted. -/
theorem completeEntry_ends {q : QueueId} {s : State} (hd : s.port.dev ≠ .resetting)
    (hw : (s.writeOf (WritePurpose.isEntryOf q)).isSome) (hp : (s.rq q).state ≠ .absent) :
    (¬((s.rq q).closing = true ∧ (s.rq q).inFlight ≤ 1) → completeEntry q s = entryCounted q s)
      ∧ ((s.rq q).closing = true ∧ (s.rq q).inFlight ≤ 1 → ∀ h result, s.admin.engine = .executing h q result →
          completeEntry q s = handAdminDone h .ok (some result) ((entryCounted q s).setRq q ReportQueue.absent))
      ∧ ((s.rq q).closing = true ∧ (s.rq q).inFlight ≤ 1 → s.admin.engine = .idleWait →
          completeEntry q s = (entryCounted q s).setRq q ReportQueue.absent) := by
  obtain ⟨m, out, marks, hshape⟩ := entryCounted_shape q s
  have hrq : (entryCounted q s).rq q = (s.rq q).completed m := by
    rw [hshape]
    exact rq_entryOver q m s
  have hadmin : (entryCounted q s).admin = s.admin := by rw [hshape]; rfl
  rw [completeEntry_eq hd hw hp, ← hadmin]
  exact closeIfDrained_ends (by rw [hrq]; rfl) (by rw [hrq]; rfl)

/-- Settles O15: `entryCounted` by what is counted and what reaches the threshold, and the three ends of the completion. -/
theorem entryWriteCounts : Obligations.EntryWriteCounts := by
  intro q s hd hw hp c m counted reaches last
  have completes : ∀ {t}, completeEntry q s = t → Completes (.entryWriteCompletion q) s t := congrArg Host.Outcome.next
  obtain ⟨hstays, hanswers, hends⟩ := completeEntry_ends hd hw hp
  obtain ⟨m', out, marks, hshape⟩ := entryCounted_shape q s
  refine ⟨entryCounted q s, fun hn => completes (hstays hn), fun hl h result he => completes (hanswers hl h result he),
    fun hl he => completes (hends hl he), ?_, fun p hne => ?_, ?_, ?_, fun hc => ?_, fun hc hn => ?_, fun hc hn => ?_, ?_⟩
  · rw [hshape]
  · rw [hshape]
    exact State.rq_setRq_ne _ _ hne
  · rw [hshape]
    rfl
  · rw [hshape]
    exact (rq_entryOver q m' s).trans (congrArg c.completed (congrArg ReportQueue.irq (rq_entryOver q m' s)).symm)
  · rw [entryCounted_uncounted hc, rq_entryOver]
    exact ⟨rfl, rfl, rfl⟩
  · rw [entryCounted_below hc hn, rq_entryOver]
    exact ⟨rfl, rfl, rfl⟩
  · rw [entryCounted_reaches hc hn, sendMessage_eq]
    exact congrArg ReportQueue.irq (rq_entryOver q m.cleared s)
  · have hlink : counted → reaches → (entryCounted q s).link = if s.link.msiAllowed = false then (entryOver q m.cleared s).link
        else if s.link.masked[m.vector] then { (entryOver q m.cleared s).link with marks := s.link.marks.set m.vector true }
        else { (entryOver q m.cleared s).link with out := s.link.out ++ [.message m.vector] } := fun hc hn => by
      rw [entryCounted_reaches hc hn, sendMessage_eq]
      rfl
    refine ⟨fun hc hn ha hm => ?_, fun hc hn ha hm => ?_, fun hc hn ha => ?_⟩
    · rw [hlink hc hn, if_neg (by simp [ha]), if_neg (by simp [hm])]
      exact ⟨rfl, rfl⟩
    · rw [hlink hc hn, if_neg (by simp [ha]), if_pos hm]
      exact ⟨rfl, rfl⟩
    · rw [hlink hc hn, if_pos ha]
      exact ⟨rfl, rfl⟩

/-! ## A failed entry write (R147) -/

section Failed

variable {q : QueueId} {w : PendingWrite} {slot : Nat} {seq : BitVec 16} {s : State} (hq : q ≠ 0) (hd : s.port.dev ≠ .resetting)
  (hw : s.writeOf (WritePurpose.isEntryOf q) = some w)

include hq hd hw

/-- On an ACTIVE queue, outside FAULTED: the queue is FAILED and an RQ-FAILED is handed to RQ0 (R147). -/
theorem failEntry_active (hp : w.purpose = .entry q slot seq) (hf : s.port.dev ≠ .faulted) (ha : (s.rq q).state = .active) :
    failEntry q s = closeIfDrained q
      (handReport 0 { source := BitVec.ofNat 8 q.val, tag := 0, time := s.time, body := .rqFailed slot seq }
        ((s.dropWrite (WritePurpose.isEntryOf q)).setRq q { (s.rq q).completed (s.rq q).irq with state := .failed })) := by
  have hover := rq_entryOver q (s.rq q).irq s
  have hactive : ((entryOver q (s.rq q).irq s).rq q).state = .active := by rw [hover]; exact ha
  have hfailed : (entryOver q (s.rq q).irq s).setRq q { (s.rq q).completed (s.rq q).irq with state := .failed }
      = (s.dropWrite (WritePurpose.isEntryOf q)).setRq q { (s.rq q).completed (s.rq q).irq with state := .failed } := by
    rw [entryOver, State.setRq_setRq]
  have hfaulted : ¬(entryOver q (s.rq q).irq s).port.dev = .faulted := hf
  unfold failEntry PendingWrite.slotAndSeq
  rw [hw]
  dsimp only
  rw [lowerInFlight_dropWrite, State.dropWrite_port, if_neg hd, if_neg hfaulted, if_neg hq, if_pos hactive, hover, hfailed, hp]
  rfl

/-- On a FAILED queue, and in FAULTED, the write is over and nothing else happens (R147, R148). -/
theorem failEntry_quiet (h : s.port.dev = .faulted ∨ (s.rq q).state ≠ .active) :
    failEntry q s = closeIfDrained q (entryOver q (s.rq q).irq s) := by
  unfold failEntry
  rw [hw]
  dsimp only
  rw [lowerInFlight_dropWrite, State.dropWrite_port, if_neg hd]
  by_cases hf : s.port.dev = .faulted
  · exact if_pos hf
  · have hactive : ¬((entryOver q (s.rq q).irq s).rq q).state = .active := by rw [rq_entryOver]; exact h.resolve_left hf
    exact (if_neg hf).trans ((if_neg hq).trans (if_neg hactive))

end Failed

/-- Settles O16: the failed queue or the quiet end of the write, each with the three ends of the completion. -/
theorem entryWriteErrorFailsQueue : Obligations.EntryWriteErrorFailsQueue := by
  intro q w slot seq s hq hd hw hp s1 c last ends
  have finishes : ∀ s2 : State, failEntry q s = closeIfDrained q s2 → (s2.rq q).closing = (s.rq q).closing →
      (s2.rq q).inFlight = (s.rq q).inFlight - 1 → s2.admin = s.admin → ends s2 := fun s2 he hclosing hflight hadmin => by
    obtain ⟨hstays, hanswers, hidle⟩ := closeIfDrained_ends hclosing hflight
    rw [hadmin] at hanswers hidle
    exact ⟨fun hn => congrArg Host.Outcome.next (he.trans (hstays hn)),
      fun hl h result _ hx => congrArg Host.Outcome.next (he.trans (hanswers hl h result hx)),
      fun hl hx => congrArg Host.Outcome.next (he.trans (hidle hl hx))⟩
  have hover := rq_entryOver q (s.rq q).irq s
  have quiet : s.port.dev = .faulted ∨ (s.rq q).state ≠ .active → ends (s1.setRq q c) := fun h =>
    finishes (entryOver q (s.rq q).irq s) (failEntry_quiet hq hd hw h) (by rw [hover]; rfl) (by rw [hover]; rfl) rfl
  refine ⟨fun hf ha => ?_, fun hf ha => quiet (.inr (by rw [ha]; decide)), fun hf => quiet (.inl hf)⟩
  refine finishes _ (failEntry_active hq hd hw hp hf ha) ?_ ?_ (handReport_admin _ _ _)
  all_goals rw [handReport_rq_ne _ _ _ hq, State.rq_setRq_self]

end Sys2Proof.Machine
end

section
/-!
CERTIFICATE. CREATE-RQ (R149, R155), DELETE-RQ and the end of the queue that it closes (R150, R151, R161).
-/

namespace Sys2Proof.Machine

/-! ## Operands -/

theorem creatable_none {b : Byte} (h : b = 0 ∨ 8 ≤ b.toNat) : creatable b = none := by
  rcases h with rfl | h
  · rfl
  · rw [creatable, if_neg fun e => by rw [e] at h; exact absurd h (by decide)]
    exact numberBelow_eq_none.mpr h

theorem creatable_some {b : Byte} {q : QueueId} (hq : q ≠ 0) (h : b.toNat = q.val) : creatable b = some q := by
  have hb : b ≠ 0 := fun e => hq (Fin.ext (by rw [← h, e]; rfl))
  rw [creatable, if_neg hb]
  exact numberBelow_eq_some.mpr h

theorem enable_eq {b : Byte} (h : b = 0 ∨ b = 1) : enable? b = some (b == 1) := by
  rcases h with rfl | rfl <;> rfl

/-- A bound track or a capturing line names the queue (R150). -/
theorem queueInUse_iff {s : State} {q : QueueId} : queueInUse s q = true ↔
    (∃ k, (s.track k).state ≠ .unbound ∧ (s.track k).rq = q) ∨ ∃ l, (s.line l).captureMode ≠ .none ∧ (s.line l).captureRq = q := by
  simp [queueInUse, Track.bound]

/-! ## CREATE-RQ (R149) -/

section Create

variable {p : CreateRqParams} {q : QueueId} {vector : VectorId} {enable : Bool} {s : State}

theorem createRqEffect_badTarget (h : p.queue = 0 ∨ 8 ≤ p.queue.toNat) : createRqEffect p s = refuse .badTarget s := by
  rw [createRqEffect, creatable_none h]

variable (hc : creatable p.queue = some q)

include hc

theorem createRqEffect_state (h : (s.rq q).state ≠ .absent) : createRqEffect p s = refuse .state s := by
  rw [createRqEffect, hc]
  exact if_pos h

variable (ha : (s.rq q).state = .absent)

include ha

theorem createRqEffect_badOperand (h : numberBelow 8 p.vector = none ∨ enable? p.enable = none) :
    createRqEffect p s = refuse .badParam s := by
  rw [createRqEffect, hc]
  dsimp only
  rw [if_neg (not_not_intro ha)]
  split
  · next hv he => simp [hv, he] at h
  · rfl

variable (hv : numberBelow 8 p.vector = some vector) (he : enable? p.enable = some enable)

include hv he

/-- The last check of CREATE-RQ, and what an accepted one makes (R149). -/
theorem createRqEffect_eq : createRqEffect p s =
    if ringSizeOk 16 4096 p.size.toNat = true ∧ 32 ∣ p.base.toNat ∧ p.threshold ≠ 0 then
      accept (s.setRq q (createdQueue p.base p.size.toNat enable vector p.threshold.toNat p.delay))
    else refuse .badParam s := by
  rw [createRqEffect, hc]
  dsimp only
  rw [if_neg (not_not_intro ha), hv, he]
  exact if_congr (and_congr_right fun _ => and_congr_left' Nat.dvd_iff_mod_eq_zero.symm) rfl rfl

end Create

/-! ## DELETE-RQ (R150, R151) -/

section Delete

variable {queue : Byte} {q : QueueId} {s : State}

theorem deleteRqEffect_badTarget (h : queue = 0 ∨ 8 ≤ queue.toNat) : deleteRqEffect queue s = refuse .badTarget s := by
  rw [deleteRqEffect, creatable_none h]

theorem deleteRqEffect_eq (hc : creatable queue = some q) : deleteRqEffect queue s =
    if (s.rq q).state = .absent then refuse .state s
    else if queueInUse s q = true then refuse .queueInUse s
    else if (s.rq q).inFlight = 0 then
      (.answer .ok (some (.deleted (s.rq q).state (s.rq q).counts)), s.setRq q ReportQueue.absent)
    else (.drain q (.deleted (s.rq q).state (s.rq q).counts), s.setRq q { s.rq q with closing := true }) := by
  rw [deleteRqEffect, hc]
  rfl

end Delete

/-- The row of a taken command that waits for a queue's writes to drain (R151). -/
theorem completes_drain {i : Instr} {s s2 : State} {pos : Nat} {id : BitVec 16} {c : Command} {q : QueueId} {result : AdminResult}
    (hi : exec i s = .next (completeCommandRead id c s)) (h : s.takes pos)
    (he : commandEffect id c s.taken = (.drain q result, s2)) :
    Completes i s (s2.setEngine (.executing (s.inHand pos id c) q result)) := by
  rw [Completes, hi, completeCommandRead_takes id c h, he]
  rfl

/-! ## The last write of a closing queue (R151, R161) -/

/-- The state in which the last entry write of a queue is over and the queue is ABSENT. -/
def drainedState (q : QueueId) (s : State) : State := (s.dropWrite (WritePurpose.isEntryOf q)).setRq q ReportQueue.absent

theorem setRq_entryOver (q : QueueId) (m : Moderation) (s : State) :
    (entryOver q m s).setRq q ReportQueue.absent = drainedState q s := State.setRq_setRq _ q _ _

theorem setRq_sendMessage (q : QueueId) (c : ReportQueue) (v : VectorId) (s : State) :
    (s.sendMessage v).setRq q c = (s.setRq q c).sendMessage v := by
  rw [sendMessage_eq, sendMessage_eq]
  rfl

/-- The completion of the last write counts first, and a message that it provokes is sent (R161). -/
theorem entryCounted_drained {q : QueueId} {s : State} (hd : s.port.dev ≠ .faulted) :
    (entryCounted q s).setRq q ReportQueue.absent =
      if (s.rq q).irq.enable = true ∧ (s.rq q).irq.unsignalled + 1 = (s.rq q).irq.threshold then
        (drainedState q s).sendMessage (s.rq q).irq.vector
      else drainedState q s := by
  by_cases he : (s.rq q).irq.enable = true
  · by_cases hn : (s.rq q).irq.unsignalled + 1 = (s.rq q).irq.threshold
    · rw [if_pos ⟨he, hn⟩, entryCounted_reaches ⟨hd, he⟩ hn, setRq_sendMessage, setRq_entryOver]
    · rw [if_neg fun h => hn h.2, entryCounted_below ⟨hd, he⟩ hn, setRq_entryOver]
  · rw [if_neg fun h => he h.1, entryCounted_uncounted fun h => he h.2, setRq_entryOver]

/-- A message that two conditions provoke: it goes out or leaves its mark when they hold and messages are allowed (R162). -/
theorem sendMessage_provoked (a b : Prop) [Decidable a] [Decidable b] (v : VectorId) (s : State) :
    (if a ∧ b then s.sendMessage v else s) = { s with link := { s.link with
      out := if (a ∧ b ∧ s.link.msiAllowed = true) ∧ s.link.masked[v] = false then s.link.out ++ [.message v] else s.link.out
      marks := if (a ∧ b ∧ s.link.msiAllowed = true) ∧ s.link.masked[v] = true then s.link.marks.set v true
        else s.link.marks } } := by
  by_cases h : a ∧ b
  · obtain ⟨ha, hb⟩ := id h
    rw [if_pos h, sendMessage_eq]
    cases hm : s.link.msiAllowed with
    | false => simp
    | true => cases hv : s.link.masked[v] <;> simp [ha, hb, hm]
  · have hno : ∀ x y : Prop, ¬((a ∧ b ∧ x) ∧ y) := fun _ _ hx => h ⟨hx.1.1, hx.1.2.1⟩
    simp only [if_neg h, if_neg (hno _ _)]

/-- Settles O52: the effects of the two commands by their checks, and the end of the closing queue by `closeIfDrained_ends`. -/
theorem createAndDeleteRq : Obligations.CreateAndDeleteRq := by
  refine ⟨fun id q pos s ht hq => ⟨?create, ?delete⟩, ?createRefused, ?deleteRefused, ?drains⟩
  case create =>
    intro p vector hqueue ha hsize hbase hvector hthreshold henable
    have heffect := createRqEffect_eq (s := s.taken) (creatable_some hq hqueue) ha (numberBelow_eq_some.mpr hvector) (enable_eq henable)
    exact completes_answer rfl ht (heffect.trans (if_pos ⟨(ringSizeOk_iff (by decide)).mpr hsize, hbase, hthreshold⟩))
  case delete =>
    intro queue hqueue hp htracks hlines h result
    have hunused : ¬queueInUse s.taken q = true := fun hu => by
      rcases queueInUse_iff.mp hu with ⟨k, hb, hk⟩ | ⟨l, hm, hl⟩
      · exact htracks k hb hk
      · exact hlines l hm hl
    have heffect := (deleteRqEffect_eq (s := s.taken) (creatable_some hq hqueue)).trans ((if_neg hp).trans (if_neg hunused))
    exact ⟨fun h0 => completes_answer rfl ht (heffect.trans (if_pos h0)),
      fun h0 => completes_drain rfl ht (heffect.trans (if_neg h0))⟩
  case createRefused =>
    intro id p pos s ht refused bad
    refine ⟨fun h => completes_answer rfl ht (createRqEffect_badTarget h), fun q hq hqueue =>
      ⟨fun hp => completes_answer rfl ht (createRqEffect_state (creatable_some hq hqueue) hp), fun ha hbad =>
        completes_answer rfl ht ?_⟩⟩
    change createRqEffect p s.taken = refuse .badParam s.taken
    have hc := creatable_some hq hqueue
    cases hv : numberBelow 8 p.vector with
    | none => exact createRqEffect_badOperand hc ha (.inl hv)
    | some vector =>
      cases he : enable? p.enable with
      | none => exact createRqEffect_badOperand hc ha (.inr he)
      | some enable =>
        refine (createRqEffect_eq (s := s.taken) hc ha hv he).trans (if_neg fun ⟨hsize, hbase, hthreshold⟩ => ?_)
        rcases hbad with h | h | h | h | h
        · exact h ((ringSizeOk_iff (by decide)).mp hsize)
        · exact h hbase
        · exact absurd (hv.symm.trans (numberBelow_eq_none.mpr h)) nofun
        · exact hthreshold h
        · exact absurd (he.symm.trans (enable_none h)) nofun
  case deleteRefused =>
    intro id queue pos s ht refused
    refine ⟨fun h => completes_answer rfl ht (deleteRqEffect_badTarget h), fun q hq hqueue => ?_⟩
    have heffect := deleteRqEffect_eq (s := s.taken) (creatable_some hq hqueue)
    exact ⟨fun ha => completes_answer rfl ht (heffect.trans (if_pos ha)), fun hp hu =>
      completes_answer rfl ht (heffect.trans ((if_neg hp).trans (if_pos (queueInUse_iff.mpr hu))))⟩
  case drains =>
    intro q s hw hp hclosing hflight m sends drained signalled
    have hlast : (s.rq q).closing = true ∧ (s.rq q).inFlight ≤ 1 := ⟨hclosing, hflight.le⟩
    refine ⟨fun h result hlive he => ?_, fun hd he => ?_⟩
    · have hd : s.port.dev ≠ .resetting ∧ s.port.dev ≠ .faulted := by rcases hlive with h | h <;> rw [h] <;> decide
      have hsignalled : (entryCounted q s).setRq q ReportQueue.absent = signalled := by
        rw [entryCounted_drained hd.2]
        exact sendMessage_provoked _ _ m.vector (drainedState q s)
      rw [← hsignalled]
      obtain ⟨-, hanswers, -⟩ := completeEntry_ends hd.1 hw hp
      exact congrArg Host.Outcome.next (hanswers hlast h result he)
    · have hdrained : (entryCounted q s).setRq q ReportQueue.absent = drained := by
        rw [entryCounted_uncounted fun h => h.1 hd, setRq_entryOver]
        rfl
      rw [← hdrained]
      obtain ⟨-, -, hends⟩ := completeEntry_ends (by rw [hd]; decide) hw hp
      exact congrArg Host.Outcome.next (hends hlast he)

end Sys2Proof.Machine
end

section
/-!
CERTIFICATE. Interrupt messages: the expiry of a delay timer (R157, R158), the masks of the vectors (R162), and SET-RQ-INTERRUPT
(R159, R160).
-/

namespace Sys2Proof.Machine

/-! ## The masks of the vectors (R162) -/

/-- The link once a vector is unmasked: its mark is cleared, and a message that it stood for goes out when messages are allowed. -/
theorem unmaskVector_eq (v : VectorId) (s : State) : unmaskVector v s = { s with link := { s.link with
    masked := s.link.masked.set v false, marks := s.link.marks.set v false
    out := if s.link.marks[v] = true ∧ s.link.msiAllowed = true then s.link.out ++ [.message v] else s.link.out } } := by
  unfold unmaskVector
  cases hmark : s.link.marks[v] with
  | false => rfl
  | true =>
    dsimp only
    rw [if_pos rfl, sendMessage_eq]
    cases hallowed : s.link.msiAllowed with
    | false => simp
    | true => simp

/-- Settles O17: `sendFor` by what a message does to the link, and the unmasked link by `unmaskVector_eq`. -/
theorem messagesAndMasks : Obligations.MessagesAndMasks := by
  refine ⟨fun q moment s htimer hmoment => ?expiry, fun v s => ⟨rfl, unmaskVector v s, rfl, ?unmask⟩⟩
  case expiry =>
    intro m
    have hreached : reached (s.rq q).irq.timer s.time = true := by rw [htimer]; exact decide_eq_true hmoment
    refine ⟨sendFor q s, congrArg Host.Outcome.next (if_pos hreached), ?_⟩
    rw [sendFor_eq, sendMessage_eq]
    exact ⟨State.rq_setRq_self s q _, fun q' hne => State.rq_setRq_ne s _ hne, rfl, rfl⟩
  case unmask =>
    rw [unmaskVector_eq]
    refine ⟨rfl, rfl, rfl, rfl, rfl, rfl, fun hsilent => if_neg ?_, fun hmark hallowed => if_pos ⟨hmark, hallowed⟩⟩
    rintro ⟨hmark, hallowed⟩
    rcases hsilent with h | h
    · exact absurd (hmark.symm.trans h) nofun
    · exact absurd (hallowed.symm.trans h) nofun

/-! ## The settings of a queue's interrupts (R160) -/

/-- The moderation context with the four settings of a SET-RQ-INTERRUPT, its count and timer as they were (R159). -/
def Moderation.configured (m : Moderation) (enable : Bool) (vector : VectorId) (threshold : Nat) (delay : BitVec 16) : Moderation :=
  { m with enable := enable, vector := vector, threshold := threshold, delay := delay }

/-- The timer of a queue that stays enabled and sends nothing, under its new delay (R160). -/
def Moderation.retimed (m : Moderation) (delay : BitVec 16) (now : Time) : Option Time :=
  if delay = 0 then none else if m.timer = none ∧ m.unsignalled ≠ 0 then some (now + ticksOf delay) else m.timer

section Settings

variable {q : QueueId} {enable : Bool} {vector : VectorId} {threshold : Nat} {delay : BitVec 16} {s : State}

theorem applyInterruptSettings_disables (he : enable = false) (hold : (s.rq q).irq.enable = true) :
    applyInterruptSettings q enable vector threshold delay s =
      s.setIrq q ((s.rq q).irq.configured enable vector threshold delay).cleared := by
  subst he
  unfold applyInterruptSettings
  dsimp only
  rw [hold]
  rfl

theorem applyInterruptSettings_staysDisabled (he : enable = false) (hold : (s.rq q).irq.enable = false) :
    applyInterruptSettings q enable vector threshold delay s =
      s.setIrq q ((s.rq q).irq.configured enable vector threshold delay) := by
  subst he
  unfold applyInterruptSettings
  dsimp only
  rw [hold]
  rfl

theorem applyInterruptSettings_enables (he : enable = true) (hold : (s.rq q).irq.enable = false) :
    applyInterruptSettings q enable vector threshold delay s =
      if completedOutstanding (s.rq q) = 0 then s.setIrq q ((s.rq q).irq.configured enable vector threshold delay)
      else (s.setIrq q ((s.rq q).irq.configured enable vector threshold delay).cleared).sendMessage vector := by
  subst he
  unfold applyInterruptSettings
  dsimp only
  rw [hold]
  exact if_congr Iff.rfl rfl (sendFor_setIrq q _ s)

theorem applyInterruptSettings_staysEnabled (he : enable = true) (hold : (s.rq q).irq.enable = true) :
    applyInterruptSettings q enable vector threshold delay s =
      if (s.rq q).irq.unsignalled ≠ 0 ∧ threshold ≤ (s.rq q).irq.unsignalled then
        (s.setIrq q ((s.rq q).irq.configured enable vector threshold delay).cleared).sendMessage vector
      else s.setIrq q { (s.rq q).irq.configured enable vector threshold delay with timer := (s.rq q).irq.retimed delay s.time } := by
  subst he
  unfold applyInterruptSettings Moderation.retimed
  dsimp only
  rw [hold]
  refine if_congr Iff.rfl (sendFor_setIrq q _ s) ?_
  split_ifs <;> rfl

end Settings

/-! ## The checks of SET-RQ-INTERRUPT (R159) -/

section SetRqInterrupt

variable {p : RqInterruptParams} {q : QueueId} {vector : VectorId} {enable : Bool} {s : State}

theorem setRqInterruptEffect_badTarget (h : 8 ≤ p.queue.toNat) : setRqInterruptEffect p s = refuse .badTarget s := by
  rw [setRqInterruptEffect, numberBelow_eq_none.mpr h]

variable (hq : p.queue.toNat = q.val)

include hq

theorem setRqInterruptEffect_state (ha : (s.rq q).state = .absent) : setRqInterruptEffect p s = refuse .state s := by
  rw [setRqInterruptEffect, numberBelow_eq_some.mpr hq]
  exact if_pos ha

variable (hp : (s.rq q).state ≠ .absent)

include hp

theorem setRqInterruptEffect_badParam (h : enable? p.enable = none ∨ numberBelow 8 p.vector = none ∨ p.threshold = 0) :
    setRqInterruptEffect p s = refuse .badParam s := by
  rw [setRqInterruptEffect, numberBelow_eq_some.mpr hq]
  dsimp only
  rw [if_neg hp]
  split
  · next he hv =>
    have hthreshold : p.threshold = 0 := by simpa [he, hv] using h
    exact if_pos hthreshold
  · rfl

theorem setRqInterruptEffect_accepted (he : enable? p.enable = some enable) (hv : p.vector.toNat = vector.val)
    (hthreshold : p.threshold ≠ 0) :
    setRqInterruptEffect p s = accept (applyInterruptSettings q enable vector p.threshold.toNat p.delay s) := by
  rw [setRqInterruptEffect, numberBelow_eq_some.mpr hq, he, numberBelow_eq_some.mpr hv]
  exact (if_neg hp).trans (if_neg hthreshold)

end SetRqInterrupt

/-- Settles O53: the accepted command by the enable before and after it, and the refusals by their operands. -/
theorem setRqInterruptResult : Obligations.SetRqInterruptResult := by
  refine ⟨?accepted, ?refused⟩
  case accepted =>
    intro id p q vector pos s ht hq hp hv hthreshold henable c m stored answers done
    have answered : ∀ {s2}, applyInterruptSettings q (p.enable == 1) vector p.threshold.toNat p.delay s.taken = s2 → answers s2 :=
      fun e => completes_answer rfl ht
        ((setRqInterruptEffect_accepted (s := s.taken) hq hp (enable_eq henable) hv hthreshold).trans (congrArg accept e))
    have off : p.enable = 0 → (p.enable == 1) = false := fun h => by rw [h]; rfl
    have on : p.enable = 1 → (p.enable == 1) = true := fun h => by rw [h]; rfl
    refine ⟨fun h0 hold => answered (applyInterruptSettings_disables (off h0) hold),
      fun h0 hold => answered (applyInterruptSettings_staysDisabled (off h0) hold), fun h1 hold hdone => ?quiet,
      fun h1 hold hdone => ?reminds, fun h1 hold hcount hreach => ?sends, fun h1 hold hbelow => ?runsOn⟩
    case quiet => exact answered ((applyInterruptSettings_enables (s := s.taken) (on h1) hold).trans (if_pos hdone))
    case reminds => exact answered ((applyInterruptSettings_enables (s := s.taken) (on h1) hold).trans (if_neg hdone))
    case sends =>
      exact answered ((applyInterruptSettings_staysEnabled (s := s.taken) (on h1) hold).trans (if_pos ⟨hcount, hreach⟩))
    case runsOn =>
      have hno : ¬(m.unsignalled ≠ 0 ∧ p.threshold.toNat ≤ m.unsignalled) := fun ⟨hcount, hreach⟩ =>
        hbelow.elim hcount (Nat.not_lt.mpr hreach)
      exact answered ((applyInterruptSettings_staysEnabled (s := s.taken) (on h1) hold).trans (if_neg hno))
  case refused =>
    intro id p pos s ht refused
    refine ⟨fun h => completes_answer rfl ht (setRqInterruptEffect_badTarget h), fun q hq =>
      ⟨fun ha => completes_answer rfl ht (setRqInterruptEffect_state (s := s.taken) hq ha), fun hp hbad =>
        completes_answer rfl ht (setRqInterruptEffect_badParam (s := s.taken) hq hp ?_)⟩⟩
    rcases hbad with h | h | h
    · exact .inl (enable_none h)
    · exact .inr (.inl (numberBelow_eq_none.mpr h))
    · exact .inr (.inr h)

end Sys2Proof.Machine
end

section
/-!
SUPPORT. The record of an admin command (R191, R194): its little-endian fields and flags read back as they were written, and the record
that spells a command reads as that command with its id.
-/

namespace Sys2Proof

/-! ## Fields -/

theorem le16_bytes (x : BitVec 16) : le16 (x.extractLsb' 0 8) (x.extractLsb' 8 8) = x :=
  BitVec.extractLsb'_append_extractLsb' (w := 8) (len := 8)

theorem le48_bytes (x : BitVec 48) :
    le48 (x.extractLsb' 0 8) (x.extractLsb' 8 8) (x.extractLsb' 16 8) (x.extractLsb' 24 8) (x.extractLsb' 32 8)
      (x.extractLsb' 40 8) = x := by
  simp only [le48, BitVec.extractLsb'_append_extractLsb'_eq_extractLsb']
  exact BitVec.extractLsb'_eq_self

theorem le64_bytes (x : BitVec 64) :
    le64 (x.extractLsb' 0 8) (x.extractLsb' 8 8) (x.extractLsb' 16 8) (x.extractLsb' 24 8) (x.extractLsb' 32 8)
      (x.extractLsb' 40 8) (x.extractLsb' 48 8) (x.extractLsb' 56 8) = x := by
  simp only [le64, BitVec.extractLsb'_append_extractLsb'_eq_extractLsb']
  exact BitVec.extractLsb'_eq_self

theorem getLsbD_flagByte (b : Bool) : (flagByte b).getLsbD 0 = b := by cases b <;> rfl

/-! ## The record that spells a command -/

/-- The bytes of a command up to its last parameter: opcode, command id and parameters, with the unused bytes between them 0 (R194). -/
def commandBytes (id : BitVec 16) (c : Command) : List Byte := [c.opcode, 0] ++ bytes16 id ++ zeroBytes 4 ++ c.paramBytes

/-- The record holds the bytes of the command, and 0 behind them. -/
theorem getElem_encodeCommand (id : BitVec 16) (c : Command) (i : Nat) (h : i < 64) :
    (encodeCommand id c)[i] = (commandBytes id c).getD i 0 := Vector.getElem_ofFn h

theorem opcode_encodeCommand (id : BitVec 16) (c : Command) : (encodeCommand id c)[0] = c.opcode :=
  getElem_encodeCommand id c 0 _

theorem id_encodeCommand (id : BitVec 16) (c : Command) : le16 (encodeCommand id c)[2] (encodeCommand id c)[3] = id := by
  rw [getElem_encodeCommand, getElem_encodeCommand]
  exact le16_bytes id

/-- The lane list of BIND-TRACK is the last field of its record, from byte 36 on (R194). -/
theorem lanes_commandBytes (id : BitVec 16) (p : BindParams) :
    Vector.ofFn (fun i : Fin 16 => (commandBytes id (.bindTrack p)).getD (36 + i.val) 0) = p.lanes := by
  have hsplit : ∃ front, commandBytes id (.bindTrack p) = front ++ p.lanes.toList ∧ front.length = 36 :=
    ⟨_, (List.append_assoc _ _ _).symm, rfl⟩
  obtain ⟨front, hsplit, hlength⟩ := hsplit
  refine Vector.ext fun i hi => ?_
  rw [Vector.getElem_ofFn, hsplit, List.getD_append_right _ _ _ _ (by omega)]
  simp [hlength, hi]

/-! ## Reading the record -/

/-- An opcode that names no command reads as itself (R170). -/
theorem decodeParams_unnamed {r : CommandRecord} (h : opcodeNamed r[0] = false) : decodeParams r = .unknown r[0] := by
  unfold decodeParams
  split
  case h_18 => rfl
  all_goals next e => exact absurd h (by rw [opcodeNamed, e]; decide)

/-- The parameters of a record read as the command that it spells (R194). -/
theorem decodeParams_encodeCommand {id : BitVec 16} {c : Command} (h : ∀ opcode, c = .unknown opcode → opcodeNamed opcode = false) :
    decodeParams (encodeCommand id c) = c := by
  cases c
  case unknown opcode =>
    have hread := opcode_encodeCommand id (.unknown opcode)
    exact (decodeParams_unnamed (hread ▸ h opcode rfl)).trans (congrArg Command.unknown hread)
  all_goals simp only [decodeParams, field64, getElem_encodeCommand]
  case identify buffer => exact congr(Command.identify $(le64_bytes buffer))
  case setLine p =>
    exact congr(Command.setLine { p with window := $(le16_bytes p.window), interval := $(getLsbD_flagByte p.interval) })
  case setStatic mask levels => exact congr(Command.setStatic $(le48_bytes mask) $(le48_bytes levels))
  case snapshot buffer clear => exact congr(Command.snapshot $(le64_bytes buffer) $(getLsbD_flagByte clear))
  case bindTrack p =>
    exact congr(Command.bindTrack { p with
      tolerance := $(le16_bytes p.tolerance), holdLimit := $(le16_bytes p.holdLimit), pattern := $(le16_bytes p.pattern)
      sqSize := $(le16_bytes p.sqSize), sqBase := $(le64_bytes p.sqBase), retireAddr := $(le64_bytes p.retireAddr)
      lanes := $(lanes_commandBytes id p) })
  case startTracks mask mode start => exact congr(Command.startTracks mask mode $(le64_bytes start))
  case trackStatus track buffer => exact congr(Command.trackStatus track $(le64_bytes buffer))
  case createRq p =>
    exact congr(Command.createRq { p with
      delay := $(le16_bytes p.delay), size := $(le16_bytes p.size), base := $(le64_bytes p.base) })
  case setRqInterrupt p => exact congr(Command.setRqInterrupt { p with delay := $(le16_bytes p.delay) })
  all_goals rfl

/-- The record that spells a command reads as that command with its id (R191, R194). -/
theorem decodeCommand_encodeCommand {id : BitVec 16} {c : Command} (h : ∀ opcode, c = .unknown opcode → opcodeNamed opcode = false) :
    decodeCommand (encodeCommand id c) = (id, c) := by
  rw [decodeCommand, id_encodeCommand, decodeParams_encodeCommand h]

end Sys2Proof
end

section
/-!
CERTIFICATE. A command record is the row of the command that it spells (R168, R194), an opcode that names none (R170), and the
completions that find no command to take (R175).
-/

namespace Sys2Proof.Machine

/-! ## The rows -/

/-- The row of a command is the error-free completion of the read of that command (R168). -/
theorem exec_ofCommand {id : BitVec 16} {c : Command} (h : ∀ opcode, c = .unknown opcode → opcodeNamed opcode = false) (s : State) :
    exec (Instr.ofCommand id c) s = .next (completeCommandRead id c s) := by
  cases c
  case unknown opcode => exact congrArg Host.Outcome.next (if_neg (by simp [h opcode rfl]))
  all_goals rfl

/-- The completion with a record is that of the command as which the record reads (R168, R194). -/
theorem exec_adminReadCompletion {record : CommandRecord} {id : BitVec 16} {c : Command} (h : decodeCommand record = (id, c))
    (s : State) : exec (.adminReadCompletion record) s = .next (completeCommandRead id c s) := by
  change execAdminReadCompletion record s = _
  rw [execAdminReadCompletion, h]

/-! ## An opcode that names no command (R170) -/

theorem opcodeNamed_eq_false {opcode : Byte} (h : opcode = 0 ∨ 0x11 < opcode.toNat) : opcodeNamed opcode = false := by
  rcases h with rfl | h
  · rfl
  · have : ¬opcode.toNat ≤ 0x11 := by omega
    simp [opcodeNamed, this]

theorem decodeCommand_unnamed {r : CommandRecord} (h : opcodeNamed r[0] = false) :
    decodeCommand r = (le16 r[2] r[3], .unknown r[0]) := by rw [decodeCommand, decodeParams_unnamed h]

/-! ## No command to take (R175) -/

section Nothing

variable {s : State}

/-- A read of a command that the engine has dropped: its completion ends the read alone. -/
theorem completeCommandRead_idle (id : BitVec 16) (c : Command) (hr : (s.readOf .admin).isSome) (he : s.admin.engine = .idleWait)
    (hd : s.port.dev ≠ .resetting) : completeCommandRead id c s = s.taken := by
  obtain ⟨r, hr⟩ := Option.isSome_iff_exists.mp hr
  simp [completeCommandRead, hr, hd, he]

theorem failCommandRead_idle (hr : (s.readOf .admin).isSome) (he : s.admin.engine = .idleWait) (hd : s.port.dev ≠ .resetting) :
    failCommandRead s = s.taken := by
  obtain ⟨r, hr⟩ := Option.isSome_iff_exists.mp hr
  simp [failCommandRead, hr, hd, he]

theorem completeCommandRead_none (id : BitVec 16) (c : Command) (hr : s.readOf .admin = none) : completeCommandRead id c s = s := by
  simp [completeCommandRead, hr]

theorem failCommandRead_none (hr : s.readOf .admin = none) : failCommandRead s = s := by
  simp [failCommandRead, hr]

end Nothing

/-- Settles O26: every row and every record is a completed read of its command (`exec_ofCommand`, `exec_adminReadCompletion`), and what that
completes with follows from the reply, or from there being nothing to take. -/
theorem recordIsItsRow : Obligations.RecordIsItsRow := by
  refine ⟨fun id c pos s ht hc => ?replies, fun id c s hc => ?record, fun id opcode pos s ht hop => ?unnamed, fun id c s hc => ?nothing⟩
  case replies =>
    exact ⟨fun status result s2 he => completes_answer (exec_ofCommand hc s) ht he,
      fun addr data s2 he => completes_write (exec_ofCommand hc s) ht he,
      fun q result s2 he => completes_drain (exec_ofCommand hc s) ht he⟩
  case record => exact ⟨_, exec_adminReadCompletion (decodeCommand_encodeCommand hc) s, exec_ofCommand hc s⟩
  case unnamed =>
    have hn := opcodeNamed_eq_false hop
    have hrow : exec (.unknownOpcode id opcode) s = .next (completeCommandRead id (.unknown opcode) s) :=
      exec_ofCommand (c := .unknown opcode) (fun _ e => Command.unknown.inj e ▸ hn) s
    refine ⟨completes_answer hrow ht rfl, fun record hrecord hid => ?_⟩
    subst hrecord hid
    exact completes_answer (exec_adminReadCompletion (decodeCommand_unnamed hn) s) ht rfl
  case nothing =>
    exact ⟨fun hr he hd => ⟨(exec_ofCommand hc s).trans (congrArg _ (completeCommandRead_idle id c hr he hd)),
        congrArg _ (failCommandRead_idle hr he hd)⟩,
      fun hr => ⟨(exec_ofCommand hc s).trans (congrArg _ (completeCommandRead_none id c hr)), congrArg _ (failCommandRead_none hr)⟩⟩

end Sys2Proof.Machine
end

section
/-!
CERTIFICATE. What a command can answer at its taking (R170, R171): a refusal has changed nothing and carries no result, and DMA-ERROR is
for the completion of a buffer write alone (R172, R176).
-/

namespace Sys2Proof.Machine

/-- What the taking of a command in a state can come to: a refusal that leaves the state, OK with any effect, a buffer write, or the
wait for a queue's writes (R170, R171). -/
inductive Answers (s : State) : Reply × State → Prop
  | refused {status : Status} (h : status ≠ .dmaError) : Answers s (refuse status s)
  | ok (result : Option AdminResult) (s' : State) : Answers s (.answer .ok result, s')
  | write (addr : Addr) (data : List Byte) (s' : State) : Answers s (.write addr data, s')
  | drain (q : QueueId) (result : AdminResult) (s' : State) : Answers s (.drain q result, s')

namespace Answers

section Checks

variable {s : State} {p : Prop} [Decidable p] {status : Status} {a b : Reply × State}

theorem accepted (s' : State) : Answers s (accept s') := ok none s'

/-- One check of a command: where it fails the command is refused, and otherwise what follows it answers. -/
theorem check (h : status ≠ .dmaError) (ha : Answers s a) : Answers s (if p then refuse status s else a) := by
  split
  · exact refused h
  · exact ha

/-- A check in its positive form. -/
theorem require (h : status ≠ .dmaError) (ha : Answers s a) : Answers s (if p then a else refuse status s) := by
  split
  · exact ha
  · exact refused h

/-- A choice between two answers. -/
theorem either (ha : Answers s a) (hb : Answers s b) : Answers s (if p then a else b) := by
  split
  · exact ha
  · exact hb

end Checks

section Effects

variable (s : State)

/-! ## Lines -/

theorem setLineEffect (p : SetLineParams) : Answers s (setLineEffect p s) := by
  unfold Machine.setLineEffect
  split
  · exact refused nofun
  · split
    · exact check nofun (check nofun (check nofun (accepted _)))
    · exact refused nofun

theorem setStaticEffect (mask levels : BitVec 48) : Answers s (setStaticEffect mask levels s) := check nofun (accepted _)

theorem snapshotEffect (buffer : Addr) (clear : Bool) : Answers s (snapshotEffect buffer clear s) := check nofun (write _ _ _)

/-! ## Tracks -/

theorem bindTrackEffect (p : BindParams) : Answers s (bindTrackEffect p s) := by
  unfold Machine.bindTrackEffect
  split
  · exact refused nofun
  · refine check nofun ?_
    split
    · exact refused nofun
    · exact check nofun (check nofun (accepted _))

theorem unbindTrackEffect (track : Byte) : Answers s (unbindTrackEffect track s) := by
  unfold Machine.unbindTrackEffect
  split
  · exact refused nofun
  · exact require nofun (accepted _)

theorem startTracksEffect (mask mode : Byte) (start : Time) : Answers s (startTracksEffect mask mode start s) := by
  unfold Machine.startTracksEffect
  split
  · exact refused nofun
  · exact check nofun (check nofun (check nofun (check nofun (either (accepted _) (accepted _)))))

theorem stopTrackEffect (track timing lines : Byte) : Answers s (stopTrackEffect track timing lines s) := by
  unfold Machine.stopTrackEffect
  split
  · exact refused nofun
  · refine check nofun ?_
    split
    · exact either (accepted _) (accepted _)
    · exact refused nofun

theorem pauseTrackEffect (track : Byte) : Answers s (pauseTrackEffect track s) := by
  unfold Machine.pauseTrackEffect
  split
  · exact refused nofun
  · split
    · exact refused nofun
    · exact accepted _

theorem resumeTrackEffect (track action choice : Byte) : Answers s (resumeTrackEffect track action choice s) := by
  unfold Machine.resumeTrackEffect
  split
  · exact refused nofun
  · refine check nofun ?_
    split
    · exact accepted _
    · exact check nofun (check nofun (accepted _))
    · exact refused nofun

theorem trackStatusEffect (track : Byte) (buffer : Addr) : Answers s (trackStatusEffect track buffer s) := by
  unfold Machine.trackStatusEffect
  split
  · exact refused nofun
  · exact check nofun (write _ _ _)

/-! ## Report queues -/

theorem createRqEffect (p : CreateRqParams) : Answers s (createRqEffect p s) := by
  unfold Machine.createRqEffect
  split
  · exact refused nofun
  · refine check nofun ?_
    split
    · exact require nofun (accepted _)
    · exact refused nofun

theorem deleteRqEffect (queue : Byte) : Answers s (deleteRqEffect queue s) := by
  unfold Machine.deleteRqEffect
  split
  · exact refused nofun
  · exact check nofun (check nofun (either (ok _ _) (drain _ _ _)))

theorem setRqInterruptEffect (p : RqInterruptParams) : Answers s (setRqInterruptEffect p s) := by
  unfold Machine.setRqInterruptEffect
  split
  · exact refused nofun
  · refine check nofun ?_
    split
    · exact check nofun (accepted _)
    · exact refused nofun

/-! ## Trip units -/

theorem setTripEffect (p : SetTripParams) : Answers s (setTripEffect p s) := by
  unfold Machine.setTripEffect
  split
  · exact refused nofun
  · split
    · exact check nofun (either (accepted _) (accepted _))
    · exact refused nofun

theorem clearTripEffect (unit : Byte) : Answers s (clearTripEffect unit s) := by
  unfold Machine.clearTripEffect
  split
  · exact refused nofun
  · exact check nofun (check nofun (ok _ _))

theorem fireTripEffect (id : BitVec 16) (unit : Byte) : Answers s (fireTripEffect id unit s) := by
  unfold Machine.fireTripEffect
  split
  · exact refused nofun
  · exact check nofun (accepted _)

/-! ## Every command -/

theorem commandEffect (id : BitVec 16) (c : Command) : Answers s (commandEffect id c s) := by
  cases c with
  | identify buffer => exact check nofun (write _ _ _)
  | setLine p => exact setLineEffect s p
  | setStatic mask levels => exact setStaticEffect s mask levels
  | snapshot buffer clear => exact snapshotEffect s buffer clear
  | bindTrack p => exact bindTrackEffect s p
  | unbindTrack track => exact unbindTrackEffect s track
  | startTracks mask mode start => exact startTracksEffect s mask mode start
  | stopTrack track timing lines => exact stopTrackEffect s track timing lines
  | pauseTrack track => exact pauseTrackEffect s track
  | resumeTrack track action choice => exact resumeTrackEffect s track action choice
  | trackStatus track buffer => exact trackStatusEffect s track buffer
  | createRq p => exact createRqEffect s p
  | deleteRq queue => exact deleteRqEffect s queue
  | setRqInterrupt p => exact setRqInterruptEffect s p
  | setTrip p => exact setTripEffect s p
  | clearTrip unit => exact clearTripEffect s unit
  | fireTrip unit => exact fireTripEffect s id unit
  | unknown opcode => exact refused nofun

end Effects

end Answers

/-- Settles O27: of what a taking can come to (`Answers.commandEffect`), a status but OK comes of a refusal alone. -/
theorem refusedCommandChangesNothing : Obligations.RefusedCommandChangesNothing := by
  intro id c status result s s' he hstatus
  have ha := Answers.commandEffect s id c
  rw [he] at ha
  cases ha with
  | refused h => exact ⟨rfl, rfl, h⟩
  | ok => exact absurd rfl hstatus

end Sys2Proof.Machine
end

section
/-!
CERTIFICATE. The bytes of the records that the part writes (R191): report entries (R193), and the identity, snapshot and track status
records (R178, R195), with the codes that they show.
-/

namespace Sys2Proof

/-! ## Fields -/

theorem length_leBytes (n w : Nat) (x : BitVec w) : (leBytes n w x).length = n := by simp [leBytes]

/-- Byte `i` of a field holds the bits from `8 * i` on: the least significant byte comes first (R191). -/
theorem getElem?_leBytes {n w i : Nat} (x : BitVec w) (h : i < n) :
    (leBytes n w x)[i]? = some ((x >>> (8 * i)).setWidth 8) := by
  have hbyte : x.extractLsb' (8 * i) 8 = (x >>> (8 * i)).setWidth 8 := by
    ext j hj
    simp
  simp [leBytes, h, hbyte]

/-- Of records of one length that stand one after another, the record at a place. -/
theorem take_drop_flatMap {α β : Type} {n : Nat} {f : α → List β} (hf : ∀ a, (f a).length = n) :
    ∀ (l : List α) (i : Nat) (h : i < l.length), ((l.flatMap f).drop (n * i)).take n = f l[i]
  | a :: l, 0, _ => by simp [hf a]
  | a :: l, i + 1, h => by
    have hlen : n * (i + 1) = (f a).length + n * i := by rw [hf, Nat.mul_succ, Nat.add_comm]
    rw [List.flatMap_cons, hlen, List.drop_length_add_append]
    exact take_drop_flatMap hf l i (Nat.lt_of_succ_lt_succ h)

end Sys2Proof

namespace Sys2Proof.Machine

/-! ## Marks -/

theorem flagAt_or_four (a b c d : Bool) : flagAt 0 a ||| flagAt 1 b ||| flagAt 2 c ||| flagAt 3 d
    = (if a then 1 else 0) + (if b then 2 else 0) + (if c then 4 else 0) + (if d then 8 else 0) := by
  revert a b c d
  decide

theorem flagAt_or_five (a b c d e : Bool) : flagAt 0 a ||| flagAt 1 b ||| flagAt 2 c ||| flagAt 3 d ||| flagAt 4 e
    = (if a then 1 else 0) + (if b then 2 else 0) + (if c then 4 else 0) + (if d then 8 else 0) + (if e then 16 else 0) := by
  revert a b c d e
  decide

theorem levelHigh_eq (l : Level) : levelHigh l = decide (l = .high) := by cases l <;> rfl

/-! ## Report entries (R193) -/

/-- The kind fields of a report take the last 16 bytes of its entry (R193). -/
theorem ReportBody.length_bytes (b : ReportBody) : b.bytes.length = 16 := by
  cases b
  case adminDone opcode status taken result => rcases result with _ | _ | _ <;> rfl
  all_goals rfl

/-- An entry is its kind, the pass bit with the marks, the sequence number, the source, the kind byte, the tag, the timestamp and the
bytes of its kind (R193). -/
theorem encodeEntry_eq {body : ReportBody} {kind marks kindByte : Byte} {rest : List Byte} {pass : Bool} {seq : BitVec 16}
    {source : Byte} {tag : BitVec 16} {time : Time} (hkind : body.kindCode = kind) (hmarks : body.marks = marks)
    (hbyte : body.kindByte = kindByte) (hrest : body.bytes = rest) :
    rest.length = 16 ∧ encodeEntry pass seq { source := source, tag := tag, time := time, body := body }
      = [kind, (if pass then 1 else 0) ||| marks] ++ leBytes 2 16 seq ++ [source, kindByte] ++ leBytes 2 16 tag ++ leBytes 8 64 time
        ++ rest := by
  subst hkind hmarks hbyte hrest
  exact ⟨body.length_bytes, rfl⟩

/-- The marks of a CAPTURE: whether it has a period and a width, and its new level (R193). -/
theorem marks_capture (missed : BitVec 8) (level : Level) (levels : BitVec 48) (delay : BitVec 16) (period width : Option (BitVec 32)) :
    (ReportBody.capture missed level levels delay period width).marks
      = (if period.isSome then 2 else 0) ||| (if width.isSome then 4 else 0) ||| (if level = .high then 8 else 0) := by
  cases level <;> rfl

/-! ## The snapshot record (R93, R195) -/

theorem length_snapshotEntry (c : Line) : (snapshotEntry c).length = 8 := rfl

theorem length_snapshotRecord (s : State) : (snapshotRecord s).length = 392 := by
  simp [snapshotRecord, bytes64, length_leBytes, length_snapshotEntry]

/-- The entry of a line stands at the place of its number, behind the time. -/
theorem take_drop_snapshotRecord (s : State) (l : LineId) :
    ((snapshotRecord s).drop (8 + 8 * l.val)).take 8 = snapshotEntry (s.line l) := by
  have hentry := take_drop_flatMap (fun l => length_snapshotEntry (s.line l)) (List.finRange 48) l.val (by simp)
  rw [List.getElem_finRange] at hentry
  exact (congrArg (List.take 8) (List.drop_length_add_append (l₁ := bytes64 s.time) _)).trans hentry

/-- The owner's byte: its present mark, its track and the lane (R195). -/
theorem ownerByte_eq (owner : Option LaneRef) :
    ownerByte owner = (match owner with | none => 0 | some o => BitVec.ofNat 8 (128 + 16 * o.track.val + o.lane.val)) := by
  have fields : ∀ (t : Fin 8) (i : Fin 16),
      (0x80 ||| (BitVec.ofNat 8 t.val <<< 4) ||| BitVec.ofNat 8 i.val : Byte) = BitVec.ofNat 8 (128 + 16 * t.val + i.val) := by
    decide
  cases owner with
  | none => rfl
  | some o => exact fields o.track o.lane

theorem snapshotEntry_eq (c : Line) : snapshotEntry c =
    [c.mode.code, (match c.owner with | none => 0 | some o => BitVec.ofNat 8 (128 + 16 * o.track.val + o.lane.val)), c.drive.code,
      c.safeMode.code,
      (if c.staticLevel = .high then 1 else 0) + (if c.raw = .high then 2 else 0) + (if c.accepted = .high then 4 else 0)
        + (if c.pendingStart.isSome then 8 else 0),
      c.missed] ++ leBytes 2 16 c.glitch := by
  rw [snapshotEntry, ownerByte_eq, flagAt_or_four]
  simp only [levelHigh_eq, decide_eq_true_eq]
  rfl

/-! ## The track status record (R80, R195) -/

theorem length_trackStatusRecord (c : Track) : (trackStatusRecord c).length = 80 := by
  unfold trackStatusRecord
  simp [bytes16, bytes32, bytes64, zeroBytes, length_leBytes]

theorem stopCode_eq (request : Option StopLines) :
    codeOr StopLines.code request = (match request with | none => 0 | some .hold => 1 | some .park => 2) := by
  rcases request with _ | _ | _ <;> rfl

/-- Settles O18: an entry by the four parts of its kind (`encodeEntry_eq`), the snapshot by its lines, and the track status with its marks
and its stop request in the form of the statement. -/
theorem recordBytes : Obligations.RecordBytes := by
  refine ⟨fun n w x => ⟨length_leBytes n w x, fun i hi => getElem?_leBytes x hi⟩, fun pass seq source tag time => ?entries, rfl,
    fun s => ⟨length_snapshotRecord s, rfl, take_drop_snapshotRecord s⟩, snapshotEntry_eq,
    fun c => ⟨length_trackStatusRecord c, ?status⟩, rfl, rfl, rfl, rfl, rfl, rfl, rfl, rfl, rfl, rfl, rfl, rfl, rfl, rfl⟩
  case entries =>
    exact ⟨fun opcode status taken => encodeEntry_eq rfl rfl rfl rfl,
      fun opcode status taken f => encodeEntry_eq rfl rfl rfl rfl,
      fun opcode status taken st n => encodeEntry_eq rfl rfl rfl rfl,
      fun outcome due pos number retire unreported => encodeEntry_eq rfl rfl rfl rfl,
      fun missed level levels delay period width => encodeEntry_eq rfl (marks_capture missed level levels delay period width) rfl rfl,
      fun event pos abandoned retire => encodeEntry_eq rfl rfl rfl rfl,
      fun event cause pos abandoned retire => encodeEntry_eq rfl rfl rfl rfl,
      fun cause moved edge => encodeEntry_eq rfl rfl rfl rfl,
      fun index => encodeEntry_eq rfl rfl rfl rfl,
      fun index => encodeEntry_eq rfl rfl rfl rfl,
      fun slot number => encodeEntry_eq rfl rfl rfl rfl,
      fun n => encodeEntry_eq rfl rfl rfl rfl⟩
  case status =>
    unfold trackStatusRecord
    simp only [stopCode_eq, flagAt_or_five]
    rfl

end Sys2Proof.Machine
end

section
/-!
SUPPORT. The device time and the queue of waiting commands through every operation of the model: no operation but a power-on sets either
(R180).
-/

namespace Sys2Proof.Machine

/-- The device time and the queue of waiting commands. -/
def State.clock (s : State) : Time × List Instr := (s.time, s.pending)

section Clock

variable (s : State)

/-! ## The updates of the state -/

/-- A state written anew in its other parts has the clock of the state whose time and queue it keeps. -/
@[simp] theorem State.clock_fields : (s.time, s.pending) = s.clock := rfl

@[simp] theorem State.clock_mk (time : Time) (port : Port) (admin : Admin) (last : TrackId) (tracks : Vector Track 8)
    (lines : Vector Line 48) (pins : Vector Level 48) (sampler : Sampler) (trips : Vector Trip 2) (rqs : Vector ReportQueue 8)
    (waiting : Option Report) (link : Link) (n : Nat) (pending : List Instr) :
    State.clock ⟨time, port, admin, last, tracks, lines, pins, sampler, trips, rqs, waiting, link, n, pending⟩ = (time, pending) := rfl

@[simp] theorem State.clock_setTrack (t : TrackId) (c : Track) : (s.setTrack t c).clock = s.clock := rfl

@[simp] theorem State.clock_modTrack (t : TrackId) (f : Track → Track) : (s.modTrack t f).clock = s.clock := rfl

@[simp] theorem State.clock_mapLines (f : LineId → Line → Line) : (s.mapLines f).clock = s.clock := by
  rw [State.mapLines, State.clock_mk, State.clock_fields]

@[simp] theorem State.clock_setRq (q : QueueId) (c : ReportQueue) : (s.setRq q c).clock = s.clock := rfl

@[simp] theorem State.clock_setIrq (q : QueueId) (m : Moderation) : (s.setIrq q m).clock = s.clock := rfl

@[simp] theorem State.clock_setEngine (e : Engine) : (s.setEngine e).clock = s.clock := rfl

@[simp] theorem State.clock_dropRead (who : Requester) : (s.dropRead who).clock = s.clock := rfl

@[simp] theorem State.clock_dropWrite (p : WritePurpose → Bool) : (s.dropWrite p).clock = s.clock := rfl

/-! ## Reports, messages and the answer of a command -/

@[simp] theorem clock_handReport (q : QueueId) (r : Report) : (handReport q r s).clock = s.clock :=
  Prod.ext (handReport_time q r s) (handReport_pending q r s)

@[simp] theorem clock_queueEvent (b : Byte) (body : ReportBody) : (queueEvent b body s).clock = s.clock := clock_handReport s 0 _

@[simp] theorem clock_postReport (q : QueueId) (r : Report) : (postReport q r s).clock = s.clock := rfl

@[simp] theorem clock_sendMessage (v : VectorId) : (s.sendMessage v).clock = s.clock := by
  rw [sendMessage_eq]
  rfl

@[simp] theorem clock_sendFor (q : QueueId) : (sendFor q s).clock = s.clock := by simp [sendFor_eq]

@[simp] theorem clock_countEntry (q : QueueId) : (countEntry q s).clock = s.clock := by
  rw [countEntry_eq]
  split
  · rfl
  · split <;> simp

@[simp] theorem clock_fatalMessage : (fatalMessage s).clock = s.clock := clock_sendMessage _ _

@[simp] theorem clock_applyInterruptSettings (q : QueueId) (enable : Bool) (v : VectorId) (n : Nat) (d : BitVec 16) :
    (applyInterruptSettings q enable v n d s).clock = s.clock := by
  unfold applyInterruptSettings
  dsimp only
  split
  · rfl
  · rfl
  · split <;> simp
  · split
    · simp
    · split
      · rfl
      · split <;> rfl

@[simp] theorem clock_endIfDrained : s.endIfDrained.clock = s.clock := by
  rw [endIfDrained_eq]
  rfl

@[simp] theorem clock_finishCommand (pos : Nat) : (finishCommand pos s).clock = s.clock := by
  unfold finishCommand
  dsimp only
  split <;> rfl

@[simp] theorem clock_handAdminDone (h : InHand) (status : Status) (result : Option AdminResult) :
    (handAdminDone h status result s).clock = s.clock := by
  unfold handAdminDone
  dsimp only
  split
  · rfl
  · split <;> simp

@[simp] theorem clock_settleReply (h : InHand) (reply : Reply) : (settleReply h reply s).clock = s.clock := by
  cases reply with
  | answer status result => exact clock_handAdminDone s h status result
  | write addr data => rfl
  | drain q result => rfl

@[simp] theorem clock_postWaiting : (postWaiting s).clock = s.clock := by
  unfold postWaiting
  split
  · rfl
  · split
    · dsimp only
      split <;> simp
    · rfl

@[simp] theorem clock_releaseSlots (q : QueueId) (index : BitVec 16) : (releaseSlots q index s).clock = s.clock := by
  have hmove : (moveRelease q index.toNat s).clock = s.clock := by
    obtain ⟨c, link, e⟩ := moveRelease_beside q index.toNat s
    rw [e]
    rfl
  unfold releaseSlots
  dsimp only
  split
  · split
    · rfl
    · split <;> simp [hmove]
  · simp

@[simp] theorem clock_closeIfDrained (q : QueueId) : (closeIfDrained q s).clock = s.clock := by
  unfold closeIfDrained
  split
  · dsimp only
    split
    · split
      · simp [makeAbsent]
      · rfl
    all_goals rfl
  · rfl

/-! ## Events of tracks and acceptances -/

/-- What events of tracks and acceptances are made of touches neither the time nor the queue. -/
theorem clock_inputClosed (s0 : State) : InputClosed fun s => s.clock = s0.clock where
  onTrack _ :=
    { report := fun q r s h => (clock_handReport s q r).trans h
      context := fun _ _ _ h => h
      claim := fun f s _ _ h => (s.clock_mapLines f).trans h
      retireWord := fun _ _ _ h => h }
  cell _ _ _ h := h
  unit _ _ _ h := h
  choice _ _ h := h

theorem clock_trackClosed (s0 : State) (t : TrackId) : TrackClosed t fun s => s.clock = s0.clock := (clock_inputClosed s0).onTrack t

@[simp] theorem clock_forceSafe (t : TrackId) (cause : SafeCause) : (forceSafe t cause s).clock = s.clock :=
  (clock_trackClosed s t).forceSafe cause rfl

@[simp] theorem clock_takeNext (t : TrackId) : (takeNext t s).clock = s.clock := (clock_trackClosed s t).takeNext rfl

@[simp] theorem clock_fire (u : UnitId) (cause : FireCause) (edge : Option Time) (tag : BitVec 16) :
    (fire u cause edge tag s).clock = s.clock := (clock_inputClosed s).fire u cause edge tag rfl

theorem clock_startEffect (ts : List TrackId) (moment : Time) : (startEffect ts moment s).clock = s.clock := by
  have harm : (armAll ts moment s).clock = s.clock := foldl_keeps (P := fun s' => s'.clock = s.clock)
    (fun s' t => s'.modTrack t fun c => c.arm moment) (fun _ _ h => h) ts rfl
  unfold startEffect
  split
  · exact foldl_keeps (P := fun s' => s'.clock = s.clock) _ (fun _ t h => (clock_trackClosed s t).startTrack moment h) _
      ((clock_inputClosed s).afterOrder _ harm)
  · exact harm

theorem clock_enterFaulted (cause : FaultCause) : (enterFaulted cause s).clock = s.clock := by
  unfold enterFaulted
  split
  · dsimp only
    rw [clock_fatalMessage, State.clock_setEngine]
    exact foldl_keeps (P := fun s' => s'.clock = s.clock) _ (fun _ t h => (clock_trackClosed s t).forceSafe _ h) _ rfl
  · rfl

/-! ## The commands that the admin engine takes -/

theorem clock_setLineEffect (p : SetLineParams) : (setLineEffect p s).2.clock = s.clock := by
  unfold setLineEffect
  split
  · rfl
  · split
    · dsimp only
      split
      · rfl
      · split
        · rfl
        · split
          · rfl
          · exact (clock_inputClosed s).applySetLine _ _ _ _ _ _ _ _ rfl
    · rfl

theorem clock_setStaticEffect (mask levels : BitVec 48) : (setStaticEffect mask levels s).2.clock = s.clock := by
  unfold setStaticEffect
  split
  · rfl
  · exact s.clock_mapLines _

theorem clock_snapshotEffect (buffer : Addr) (clear : Bool) : (snapshotEffect buffer clear s).2.clock = s.clock := by
  unfold snapshotEffect
  split
  · rfl
  · dsimp only
    split
    · exact s.clock_mapLines _
    · rfl

theorem clock_bindTrackEffect (p : BindParams) : (bindTrackEffect p s).2.clock = s.clock := by
  unfold bindTrackEffect
  split
  · rfl
  · split
    · rfl
    · split
      · rfl
      · split
        · rfl
        · split
          · rfl
          · exact State.clock_mapLines _ _

theorem clock_unbindTrackEffect (track : Byte) : (unbindTrackEffect track s).2.clock = s.clock := by
  unfold unbindTrackEffect
  split
  · rfl
  · split
    · exact State.clock_mapLines _ _
    · rfl

theorem clock_startTracksEffect (mask mode : Byte) (start : Time) : (startTracksEffect mask mode start s).2.clock = s.clock := by
  rcases startTracksEffect_cases mask mode start s with e | ⟨-, moment, e⟩
  · rw [e]
  · rw [e, clock_startEffect]

theorem clock_stopTrackEffect (track timing lines : Byte) : (stopTrackEffect track timing lines s).2.clock = s.clock := by
  unfold stopTrackEffect
  split
  · rfl
  · next t _ =>
    dsimp only
    split
    · rfl
    · split
      · split
        · rfl
        · exact (clock_trackClosed s t).stopEffect _ rfl
      · rfl

theorem clock_pauseTrackEffect (track : Byte) : (pauseTrackEffect track s).2.clock = s.clock := by
  unfold pauseTrackEffect
  repeat' split
  all_goals rfl

theorem clock_resumeTrackEffect (track action choice : Byte) : (resumeTrackEffect track action choice s).2.clock = s.clock := by
  unfold resumeTrackEffect
  split
  · rfl
  · next t _ =>
    dsimp only
    split
    · rfl
    · split
      · exact (clock_trackClosed s t).flushEffect rfl
      · split
        · rfl
        · split
          · rfl
          · exact (clock_trackClosed s t).continueTrack _ rfl
      · rfl

theorem clock_trackStatusEffect (track : Byte) (buffer : Addr) : (trackStatusEffect track buffer s).2.clock = s.clock := by
  unfold trackStatusEffect
  repeat' split
  all_goals rfl

theorem clock_createRqEffect (p : CreateRqParams) : (createRqEffect p s).2.clock = s.clock := by
  unfold createRqEffect
  repeat' split
  all_goals rfl

theorem clock_deleteRqEffect (queue : Byte) : (deleteRqEffect queue s).2.clock = s.clock := by
  unfold deleteRqEffect
  dsimp only
  repeat' split
  all_goals rfl

theorem clock_setRqInterruptEffect (p : RqInterruptParams) : (setRqInterruptEffect p s).2.clock = s.clock := by
  unfold setRqInterruptEffect
  split
  · rfl
  · split
    · rfl
    · split
      · split
        · rfl
        · exact clock_applyInterruptSettings s _ _ _ _ _
      · rfl

theorem clock_setTripEffect (p : SetTripParams) : (setTripEffect p s).2.clock = s.clock := by
  unfold setTripEffect
  split
  · rfl
  · next u _ =>
    split
    · split
      · rfl
      · dsimp only
        generalize ({ s.trip u with state := _, source := _, condition := _, mask := _ } : Trip) = c
        split
        · exact clock_fire (s.setTrip u c) u _ _ _
        · rfl
    · rfl

theorem clock_clearTripEffect (unit : Byte) : (clearTripEffect unit s).2.clock = s.clock := by
  unfold clearTripEffect
  repeat' split
  all_goals rfl

theorem clock_fireTripEffect (id : BitVec 16) (unit : Byte) : (fireTripEffect id unit s).2.clock = s.clock := by
  unfold fireTripEffect
  split
  · rfl
  · split
    · rfl
    · exact clock_fire s _ _ _ _

theorem clock_identifyEffect (buffer : Addr) : (identifyEffect buffer s).2.clock = s.clock := by
  unfold identifyEffect
  split <;> rfl

@[simp] theorem clock_commandEffect (id : BitVec 16) (c : Command) : (commandEffect id c s).2.clock = s.clock := by
  cases c with
  | identify buffer => exact clock_identifyEffect s buffer
  | setLine p => exact clock_setLineEffect s p
  | setStatic mask levels => exact clock_setStaticEffect s mask levels
  | snapshot buffer clear => exact clock_snapshotEffect s buffer clear
  | bindTrack p => exact clock_bindTrackEffect s p
  | unbindTrack track => exact clock_unbindTrackEffect s track
  | startTracks mask mode start => exact clock_startTracksEffect s mask mode start
  | stopTrack track timing lines => exact clock_stopTrackEffect s track timing lines
  | pauseTrack track => exact clock_pauseTrackEffect s track
  | resumeTrack track action choice => exact clock_resumeTrackEffect s track action choice
  | trackStatus track buffer => exact clock_trackStatusEffect s track buffer
  | createRq p => exact clock_createRqEffect s p
  | deleteRq queue => exact clock_deleteRqEffect s queue
  | setRqInterrupt p => exact clock_setRqInterruptEffect s p
  | setTrip p => exact clock_setTripEffect s p
  | clearTrip unit => exact clock_clearTripEffect s unit
  | fireTrip unit => exact clock_fireTripEffect s id unit
  | unknown opcode => rfl

/-! ## Reads and writes that complete -/

theorem clock_completeCommandRead (id : BitVec 16) (c : Command) : (completeCommandRead id c s).clock = s.clock := by
  unfold completeCommandRead
  split
  · rfl
  · dsimp only
    split
    · simp
    · split
      · simp [takeCommand]
      all_goals rfl

theorem clock_completeBuffer (error : Bool) : (completeBuffer error s).clock = s.clock := by
  unfold completeBuffer
  split
  · rfl
  · dsimp only
    split
    · simp
    · split
      · simp
      all_goals rfl

theorem clock_completeStepRead (t : TrackId) (data : Vector StepRecord 8) : (completeStepRead t data s).clock = s.clock := by
  unfold completeStepRead
  split
  · rfl
  · dsimp only
    split
    · simp
    · split
      · rfl
      · split
        · rfl
        · split <;> simp

theorem clock_failStepRead (t : TrackId) : (failStepRead t s).clock = s.clock := by
  unfold failStepRead
  split
  · rfl
  · dsimp only
    split
    · simp
    · split
      · rfl
      · split <;> simp

theorem clock_failCommandRead : (failCommandRead s).clock = s.clock := by
  unfold failCommandRead
  split
  · rfl
  · dsimp only
    split
    · simp
    · split
      · exact clock_enterFaulted _ _
      all_goals rfl

theorem clock_timeoutRead (who : Requester) : (timeoutRead who s).clock = s.clock := by
  unfold timeoutRead
  split
  · rfl
  · split
    · cases who with
      | track t => exact clock_failStepRead s t
      | admin => exact clock_failCommandRead s
    · rfl

theorem clock_completeRetireWord (t : TrackId) (error : Bool) : (completeRetireWord t error s).clock = s.clock := by
  unfold completeRetireWord
  split
  · rfl
  · dsimp only
    split
    · simp
    · split
      · rfl
      · split
        · unfold afterEarlierWrite
          dsimp only
          split <;> rfl
        · split
          · simp
          · split <;> rfl

theorem clock_completeEntry (q : QueueId) : (completeEntry q s).clock = s.clock := by
  unfold completeEntry
  split
  · rfl
  · dsimp only
    split
    · simp
    · split <;> simp [lowerInFlight]

theorem clock_failEntry (q : QueueId) : (failEntry q s).clock = s.clock := by
  unfold failEntry
  split
  · rfl
  · dsimp only
    split
    · simp
    · split
      · simp [lowerInFlight]
      · split
        · exact clock_enterFaulted _ _
        · split <;> simp [lowerInFlight]

/-! ## Timed events, samples and issues -/

theorem clock_reachStart (t : TrackId) : (reachStart t s).clock = s.clock := by
  unfold reachStart
  split
  · split
    · exact (clock_trackClosed s t).startTrack _ rfl
    · rfl
  · rfl

theorem clock_expireDue (t : TrackId) : (expireDue t s).clock = s.clock := by
  unfold expireDue
  split
  · split
    · exact (clock_trackClosed s t).dueExpired _ rfl
    · rfl
  · rfl

theorem clock_expireTimeout (t : TrackId) : (expireTimeout t s).clock = s.clock := by
  unfold expireTimeout
  split
  · split
    · exact (clock_trackClosed s t).timeoutExpired _ rfl
    · rfl
  · rfl

theorem clock_expireHold (t : TrackId) : (expireHold t s).clock = s.clock := by
  unfold expireHold
  split
  · exact (clock_trackClosed s t).enterSafe _ _ rfl
  · rfl

theorem clock_samplePin (l : LineId) (level : Level) : (samplePin l level s).clock = s.clock := by
  unfold samplePin
  dsimp only
  split
  · rfl
  · exact (clock_inputClosed s).rawChanged l level rfl

theorem clock_expireWindow (l : LineId) : (expireWindow l s).clock = s.clock := by
  unfold expireWindow
  split
  · split
    · exact (clock_inputClosed s).windowExpired l _ rfl
    · rfl
  · rfl

theorem clock_issueGrant : (issueGrant s).clock = s.clock := by
  unfold issueGrant
  repeat' split
  all_goals rfl

theorem clock_unmaskVector (v : VectorId) : (unmaskVector v s).clock = s.clock := by
  unfold unmaskVector
  dsimp only
  split <;> simp

/-! ## The host -/

theorem clock_writeRun (run : Bool) : (writeRun run s).clock = s.clock := by
  unfold writeRun
  repeat' split
  all_goals rfl

theorem clock_writePost (selector : BitVec 4) (index : BitVec 16) : (writePost selector index s).clock = s.clock := by
  unfold writePost
  dsimp only
  split
  · rfl
  · split
    · split <;> simp
    · split
      · split <;> simp
      · simp

theorem clock_writeRlse (queue : BitVec 4) (index : BitVec 16) : (writeRlse queue index s).clock = s.clock := by
  unfold writeRlse
  split
  · rfl
  · split <;> simp

theorem clock_resetBlocks : (resetBlocks s).clock = s.clock := by
  rw [resetBlocks_eq]
  rfl

theorem clock_softReset : (softReset s).clock = s.clock := by
  unfold softReset abandonUncarried
  split
  · rfl
  · split <;> simp [clock_resetBlocks]

theorem clock_hardReset : (hardReset s).clock = s.clock := by
  unfold hardReset
  split <;> simp [abandonAll, clock_resetBlocks]

theorem clock_writeRegister (offset : BitVec 32) (width : AccessWidth) (value : BitVec 32) :
    (writeRegister offset width value s).clock = s.clock := by
  unfold writeRegister
  split
  · rfl
  · rfl
  · split
    · split
      · rfl
      · split
        · exact clock_softReset s
        · exact clock_writeRun s _
    · split
      · exact clock_writePost s _ _
      · split
        · exact clock_writeRlse s _ _
        · split <;> rfl

end Clock

/-! ## Every command -/

/-- Every command but a power-on keeps the device time and the queue. -/
theorem completes_clock {c : Instr} (hc : c ≠ .powerOn) (s : State) : ∃ t, Completes c s t ∧ t.clock = s.clock := by
  have takes := clock_completeCommandRead s
  cases c
  case powerOn => exact absurd rfl hc
  case portReset => exact ⟨_, rfl, clock_hardReset s⟩
  case ctrlReset run => exact ⟨_, rfl, clock_softReset s⟩
  case ctrlRun run => exact ⟨_, rfl, clock_writeRun s run⟩
  case post selector index => exact ⟨_, rfl, clock_writePost s selector index⟩
  case rlse queue index => exact ⟨_, rfl, clock_writeRlse s queue index⟩
  case timlRead => exact ⟨_, rfl, rfl⟩
  case registerWrite offset width value => exact ⟨_, rfl, clock_writeRegister s offset width value⟩
  case readIssue => exact ⟨_, rfl, clock_issueGrant s⟩
  case stepReadCompletion k data => exact ⟨_, rfl, clock_completeStepRead s k data⟩
  case stepReadError k => exact ⟨_, rfl, clock_failStepRead s k⟩
  case readTimeout who => exact ⟨_, rfl, clock_timeoutRead s who⟩
  case unknownOpcode id opcode =>
    refine ⟨_, rfl, ?_⟩
    split
    · rfl
    · exact takes id _
  case adminReadError => exact ⟨_, rfl, clock_failCommandRead s⟩
  case bufferWriteCompletion error => exact ⟨_, rfl, clock_completeBuffer s error⟩
  case startTimeReached k => exact ⟨_, rfl, clock_reachStart s k⟩
  case dueTimerExpiry k => exact ⟨_, rfl, clock_expireDue s k⟩
  case timeoutTimerExpiry k => exact ⟨_, rfl, clock_expireTimeout s k⟩
  case holdTimerExpiry k => exact ⟨_, rfl, clock_expireHold s k⟩
  case retireWordWriteDone k => exact ⟨_, rfl, clock_completeRetireWord s k false⟩
  case retireWordWriteError k => exact ⟨_, rfl, clock_completeRetireWord s k true⟩
  case rawChange l level => exact ⟨_, rfl, clock_samplePin s l level⟩
  case windowExpiry l => exact ⟨_, rfl, clock_expireWindow s l⟩
  case entryWriteCompletion q => exact ⟨_, rfl, clock_completeEntry s q⟩
  case entryWriteError q => exact ⟨_, rfl, clock_failEntry s q⟩
  case delayTimerExpiry q =>
    refine ⟨_, rfl, ?_⟩
    split
    · exact clock_sendFor s q
    · rfl
  case vectorUnmask v => exact ⟨_, rfl, clock_unmaskVector s v⟩
  case vectorMask v => exact ⟨_, rfl, rfl⟩
  all_goals exact ⟨_, rfl, takes _ _⟩

end Sys2Proof.Machine
end

section
/-!
CERTIFICATE. Every command completes, keeps the queue of waiting commands, and only a power-on sets the device time (R180).
-/

namespace Sys2Proof.Machine

/-- Settles O3: a power-on sets the time to 0 and keeps the queue, and every other command keeps both (`completes_clock`). -/
theorem commandsKeepQueueAndTime : Obligations.CommandsKeepQueueAndTime := by
  intro c s
  by_cases hc : c = .powerOn
  · subst hc
    exact ⟨powerOn s, rfl, rfl, rfl⟩
  · obtain ⟨t, hx, ht⟩ := completes_clock hc s
    obtain ⟨htime, hpending⟩ := Prod.mk.inj ht
    exact ⟨t, hx, hpending, by rw [if_neg hc, htime]⟩

end Sys2Proof.Machine
end

section
/-!
CERTIFICATE. RUN validation and the run request in every device state (R182 to R184).
-/

namespace Sys2Proof.Machine

/-! ## RUN validation (R182) -/

/-- The code of RUN validation is that of the first check that fails. -/
theorem runChecks_validateRun (p : Port) : RunChecks p (validateRun p) := by
  unfold RunChecks
  simp only [← ringSizeOk_iff (show 256 ≤ 4096 by decide), ← ringSizeOk_iff (Nat.le_refl 4096), Nat.dvd_iff_mod_eq_zero]
  refine ⟨fun haq => ?_, fun haq hab => ?_, fun haq hab hr0 => ?_, fun haq hab hr0 hrb => ?_, fun haq hab hr0 hrb => ?_⟩ <;>
    simp [validateRun, Port.aqBase, Port.rq0Base, *]

/-! ## CTRL writes with RESET 0, by the device state -/

section WriteRun

variable {s : State}

theorem writeRun_idle_withdrawn (hd : s.port.dev = .idle) : writeRun false s = { s with port := { s.port with run := false } } := by
  rw [writeRun, hd]
  rfl

theorem writeRun_idle_invalid (hd : s.port.dev = .idle) (he : validateRun s.port ≠ .none) :
    writeRun true s = { s with port := { s.port with run := false, configError := validateRun s.port } } := by
  rw [writeRun, hd]
  cases hv : validateRun s.port
  case none => exact absurd hv he
  all_goals rfl

theorem writeRun_idle_valid (hd : s.port.dev = .idle) (he : validateRun s.port = .none) : writeRun true s = leaveIdle s := by
  rw [writeRun, hd, he]
  rfl

theorem writeRun_ready_requested (hd : s.port.dev = .ready) : writeRun true s = { s with port := { s.port with run := true } } := by
  rw [writeRun, hd]
  rfl

/-- What becomes of a withdrawn run request rests on the request and on the engine (R184). -/
theorem writeRun_ready_withdraws (hd : s.port.dev = .ready) : writeRun false s =
    if s.port.run = false then s
    else if s.admin.engine = .idleWait then { s with port := { s.port with run := false, dev := .halted } }
    else { s with port := { s.port with run := false } } := by
  rw [writeRun, hd]
  rfl

theorem writeRun_ready_halts (hd : s.port.dev = .ready) (hr : s.port.run = true) (he : s.admin.engine = .idleWait) :
    writeRun false s = { s with port := { s.port with run := false, dev := .halted } } := by
  rw [writeRun_ready_withdraws hd, if_neg (by simp [hr]), if_pos he]

theorem writeRun_ready_busy (hd : s.port.dev = .ready) (hr : s.port.run = true) (he : s.admin.engine ≠ .idleWait) :
    writeRun false s = { s with port := { s.port with run := false } } := by
  rw [writeRun_ready_withdraws hd, if_neg (by simp [hr]), if_neg he]

theorem writeRun_ready_withdrawn (hd : s.port.dev = .ready) (hr : s.port.run = false) : writeRun false s = s := by
  rw [writeRun_ready_withdraws hd, if_pos hr]

theorem writeRun_halted_requested (hd : s.port.dev = .halted) :
    writeRun true s = { s with port := { s.port with run := true, dev := .ready } } := by
  rw [writeRun, hd]
  rfl

theorem writeRun_halted_withdrawn (hd : s.port.dev = .halted) : writeRun false s = s := by
  rw [writeRun, hd]
  rfl

/-- FAULTED and RESETTING ignore a CTRL write with RESET 0 (R184, R190). -/
theorem writeRun_ignored (run : Bool) (hd : s.port.dev = .faulted ∨ s.port.dev = .resetting) : writeRun run s = s := by
  rcases hd with hd | hd <;> rw [writeRun, hd]

end WriteRun

/-- Settles O10: RUN validation is `runChecks_validateRun`, and each row of R182 to R184 is the equation of `writeRun` for its state. -/
theorem runRequest : Obligations.RunRequest := by
  have row : ∀ {run s t}, writeRun run s = t → Completes (.ctrlRun run) s t := fun e => congrArg Host.Outcome.next e
  refine ⟨fun s hd => ⟨row (writeRun_idle_withdrawn hd), validateRun s.port, runChecks_validateRun s.port, fun he => ?invalid,
    fun he => ?valid⟩, fun s => ⟨fun hd => row (writeRun_ready_requested hd), fun hd hr he => row (writeRun_ready_halts hd hr he),
      fun hd hr he => row (writeRun_ready_busy hd hr he), fun hd hr => row (writeRun_ready_withdrawn hd hr),
      fun hd => row (writeRun_halted_requested hd), fun hd => row (writeRun_halted_withdrawn hd),
      fun hd run => row (writeRun_ignored run (.inl hd))⟩⟩
  case invalid => exact row (writeRun_idle_invalid hd he)
  case valid =>
    exact ⟨leaveIdle s, row (writeRun_idle_valid hd he), rfl, rfl, s.rq_setRq_self 0 _, fun q hq => s.rq_setRq_ne _ hq, rfl⟩

end Sys2Proof.Machine
end

section
/-!
CERTIFICATE. What reaches the part in RESETTING (R179, R185, R186, R189, R190), and a read of TIML (R180).
-/

namespace Sys2Proof.Machine

/-! ## Writes and the fetch unit in RESETTING -/

section Resetting

variable {s : State} (hd : s.port.dev = .resetting)

include hd

theorem softReset_resetting : softReset s = s := if_pos hd

theorem writePost_resetting (selector : BitVec 4) (index : BitVec 16) : writePost selector index s = s := by
  simp [writePost, State.taking, hd]

theorem writeRlse_resetting (queue : BitVec 4) (index : BitVec 16) : writeRlse queue index s = s := by
  simp [writeRlse, State.taking, hd]

theorem writeRegister_resetting (offset : BitVec 32) (width : AccessWidth) (value : BitVec 32) :
    writeRegister offset width value s = s := by
  cases width with
  | byte => rfl
  | half => rfl
  | word => simp [writeRegister, hd, writePost_resetting hd, writeRlse_resetting hd]

theorem issueGrant_resetting : issueGrant s = s := if_pos hd

/-- A port reset abandons what remains of the drain, and RESETTING is over (R190). -/
theorem hardReset_resetting : hardReset s =
    { s with port := { s.port with dev := .idle, timh := 0 }, link := { s.link with reads := [], writes := [] } } := by
  rw [hardReset, if_pos hd, endIfDrained_eq]
  simp [abandonAll, hd]

/-! ## Completions in RESETTING -/

/-- What remains in flight after a completion, and whether RESETTING is over with it (R190). -/
theorem endIfDrained_resetting (reads : List PendingRead) (writes : List PendingWrite) :
    State.endIfDrained { s with link := { s.link with reads := reads, writes := writes } }
      = { s with
          link := { s.link with reads := reads, writes := writes }
          port := { s.port with dev := if reads = [] ∧ writes = [] then .idle else .resetting } } := by
  rw [endIfDrained_eq]
  simp [hd]

theorem completeStepRead_resetting {t : TrackId} (data : Vector StepRecord 8) (hr : (s.readOf (.track t)).isSome) :
    completeStepRead t data s = (s.dropRead (.track t)).endIfDrained := by
  obtain ⟨r, hr⟩ := Option.isSome_iff_exists.mp hr
  simp [completeStepRead, hr, hd]

theorem failStepRead_resetting {t : TrackId} (hr : (s.readOf (.track t)).isSome) :
    failStepRead t s = (s.dropRead (.track t)).endIfDrained := by
  obtain ⟨r, hr⟩ := Option.isSome_iff_exists.mp hr
  simp [failStepRead, hr, hd]

theorem completeCommandRead_resetting (id : BitVec 16) (c : Command) (hr : (s.readOf .admin).isSome) :
    completeCommandRead id c s = (s.dropRead .admin).endIfDrained := by
  obtain ⟨r, hr⟩ := Option.isSome_iff_exists.mp hr
  simp [completeCommandRead, hr, hd]

theorem failCommandRead_resetting (hr : (s.readOf .admin).isSome) : failCommandRead s = (s.dropRead .admin).endIfDrained := by
  obtain ⟨r, hr⟩ := Option.isSome_iff_exists.mp hr
  simp [failCommandRead, hr, hd]

/-- A read that reaches its limit is abandoned, whoever waits for it (R17, R190). -/
theorem timeoutRead_resetting {who : Requester} {r : PendingRead} (hr : s.readOf who = some r) (ht : r.issued + 1000000 ≤ s.time) :
    timeoutRead who s = (s.dropRead who).endIfDrained := by
  cases who with
  | track t => rw [timeoutRead_track hr ht, failStepRead_resetting hd (by rw [hr]; rfl)]
  | admin => rw [timeoutRead_admin hr ht, failCommandRead_resetting hd (by rw [hr]; rfl)]

theorem completeEntry_resetting {q : QueueId} (hw : (s.writeOf (WritePurpose.isEntryOf q)).isSome) :
    completeEntry q s = (s.dropWrite (WritePurpose.isEntryOf q)).endIfDrained := by
  obtain ⟨w, hw⟩ := Option.isSome_iff_exists.mp hw
  simp [completeEntry, hw, hd]

theorem failEntry_resetting {q : QueueId} (hw : (s.writeOf (WritePurpose.isEntryOf q)).isSome) :
    failEntry q s = (s.dropWrite (WritePurpose.isEntryOf q)).endIfDrained := by
  obtain ⟨w, hw⟩ := Option.isSome_iff_exists.mp hw
  simp [failEntry, hw, hd]

theorem completeRetireWord_resetting {t : TrackId} (error : Bool) (hw : (s.writeOf (WritePurpose.isRetireWordOf t)).isSome) :
    completeRetireWord t error s = (s.dropWrite (WritePurpose.isRetireWordOf t)).endIfDrained := by
  obtain ⟨w, hw⟩ := Option.isSome_iff_exists.mp hw
  simp [completeRetireWord, hw, hd]

theorem completeBuffer_resetting (error : Bool) (hw : (s.writeOf WritePurpose.isBuffer).isSome) :
    completeBuffer error s = (s.dropWrite WritePurpose.isBuffer).endIfDrained := by
  obtain ⟨w, hw⟩ := Option.isSome_iff_exists.mp hw
  simp [completeBuffer, hw, hd]

end Resetting

/-- Settles O7: each write is ignored and each completion ends its read or write alone, by the equation of its operation in RESETTING. -/
theorem resettingTakesNothing : Obligations.ResettingTakesNothing := by
  have row : ∀ {c : Instr} {s t u : State}, exec c s = .next t → t = u → Completes c s u := fun hx e => e ▸ hx
  refine ⟨fun s hd => ?writes, fun s hd => ?completions⟩
  case writes =>
    exact ⟨fun run => row rfl (softReset_resetting hd), fun run => row rfl (writeRun_ignored run (.inr hd)),
      fun selector index => row rfl (writePost_resetting hd selector index),
      fun queue index => row rfl (writeRlse_resetting hd queue index),
      fun offset width value => row rfl (writeRegister_resetting hd offset width value), row rfl (issueGrant_resetting hd),
      row rfl (hardReset_resetting hd)⟩
  case completions =>
    intro drains readDone writeDone
    have ofRead : ∀ {c who t}, exec c s = .next t → t = (s.dropRead who).endIfDrained → readDone c who := fun hx e =>
      row hx (e.trans (endIfDrained_resetting hd _ _))
    have ofWrite : ∀ {c p t}, exec c s = .next t → t = (s.dropWrite p).endIfDrained → writeDone c p := fun hx e =>
      row hx (e.trans (endIfDrained_resetting hd _ _))
    refine ⟨fun k hr => ⟨fun data => ofRead rfl (completeStepRead_resetting hd data hr), ofRead rfl (failStepRead_resetting hd hr)⟩,
      fun hr => ⟨fun record => ofRead rfl (completeCommandRead_resetting hd _ _ hr), ofRead rfl (failCommandRead_resetting hd hr),
        fun id c hc => ofRead (exec_ofCommand hc s) (completeCommandRead_resetting hd id c hr)⟩,
      fun who r hr ht => ofRead rfl (timeoutRead_resetting hd hr ht),
      fun q hw => ⟨ofWrite rfl (completeEntry_resetting hd hw), ofWrite rfl (failEntry_resetting hd hw)⟩,
      fun k hw => ⟨ofWrite rfl (completeRetireWord_resetting hd false hw), ofWrite rfl (completeRetireWord_resetting hd true hw)⟩,
      fun hw error => ofWrite rfl (completeBuffer_resetting hd error hw)⟩

/-! ## A read of TIML (R180) -/

/-- The two halves of a device time make it one. -/
theorem time_halves (x : Time) : x.extractLsb' 32 32 ++ x.setWidth 32 = x := by
  rw [BitVec.setWidth_eq_extractLsb' (by decide)]
  exact BitVec.extractLsb'_append_extractLsb' (w := 32) (len := 32)

/-- Settles O8: the read writes the two halves of the device time into its answer and the latch. -/
theorem timlReadLatchesTimh : Obligations.TimlReadLatchesTimh := fun s =>
  ⟨readTiml s, rfl, rfl, time_halves s.time, rfl⟩

end Sys2Proof.Machine
end

section
/-!
CERTIFICATE. Writes of the register window (R179, R182, R185, R186, R189, R196).
-/

namespace Sys2Proof.Machine

/-! ## Queue registers (R179, R182) -/

/-- The offsets of the six registers that set up the admin queue and RQ0 (R182). -/
def queueRegister (offset : BitVec 32) : Prop :=
  offset = 0x0C ∨ offset = 0x10 ∨ offset = 0x14 ∨ offset = 0x18 ∨ offset = 0x1C ∨ offset = 0x20

section QueueRegister

variable {offset : BitVec 32} (value : BitVec 32)

/-- At any other offset there is no queue register to write. -/
theorem writeQueueRegister_other (p : Port) (h : ¬queueRegister offset) : writeQueueRegister offset value p = p := by
  simp only [queueRegister, ← BitVec.toNat_inj, not_or] at h
  obtain ⟨haqbl, haqbh, haqsz, hr0bl, hr0bh, hr0sz⟩ := h
  unfold writeQueueRegister
  split
  · exact absurd ‹_› haqbl
  · exact absurd ‹_› haqbh
  · exact absurd ‹_› haqsz
  · exact absurd ‹_› hr0bl
  · exact absurd ‹_› hr0bh
  · exact absurd ‹_› hr0sz
  · rfl

/-- Each queue register takes the value at its own offset. -/
theorem writeQueueRegister_eq (p : Port) : writeQueueRegister offset value p =
    { p with
      aqbl := if offset = 0x0C then value else p.aqbl, aqbh := if offset = 0x10 then value else p.aqbh
      aqsz := if offset = 0x14 then value else p.aqsz, r0bl := if offset = 0x18 then value else p.r0bl
      r0bh := if offset = 0x1C then value else p.r0bh, r0sz := if offset = 0x20 then value else p.r0sz } := by
  by_cases h : queueRegister offset
  · rcases h with rfl | rfl | rfl | rfl | rfl | rfl <;> rfl
  · rw [writeQueueRegister_other value p h]
    simp only [queueRegister, not_or] at h
    obtain ⟨haqbl, haqbh, haqsz, hr0bl, hr0bh, hr0sz⟩ := h
    rw [if_neg haqbl, if_neg haqbh, if_neg haqsz, if_neg hr0bl, if_neg hr0bh, if_neg hr0sz]

variable (s : State)

theorem readRegister_writeQueueRegister (h : queueRegister offset) :
    readRegister offset .word { s with port := writeQueueRegister offset value s.port } = value := by
  rcases h with rfl | rfl | rfl | rfl | rfl | rfl <;> rfl

theorem readRegister_writeQueueRegister_ne {other : BitVec 32} (hn : other ≠ offset) :
    readRegister other .word { s with port := writeQueueRegister offset value s.port } = readRegister other .word s := by
  have hne : offset.toNat ≠ other.toNat := fun e => hn (BitVec.eq_of_toNat_eq e.symm)
  rw [writeQueueRegister_eq]
  unfold readRegister
  generalize other.toNat = n at hne
  dsimp only
  split
  case h_4 | h_5 | h_6 | h_7 | h_8 | h_9 => exact if_neg (mt (congrArg BitVec.toNat) hne)
  all_goals rfl

end QueueRegister

/-! ## Writes at every offset (R179) -/

section Write

variable {offset : BitVec 32} (value : BitVec 32) {s : State}

/-- A write at an offset without a row of its own reaches the queue registers in IDLE and nothing otherwise. -/
theorem writeRegister_plain (h4 : offset ≠ 0x04) (h24 : offset ≠ 0x24) (h28 : offset ≠ 0x28) :
    writeRegister offset .word value s =
      if s.port.dev = .idle then { s with port := writeQueueRegister offset value s.port } else s := by
  rw [writeRegister, if_neg h4, if_neg h24, if_neg h28]

theorem writeRegister_queueRegister (h : queueRegister offset) (hd : s.port.dev = .idle) :
    writeRegister offset .word value s = { s with port := writeQueueRegister offset value s.port } := by
  refine (writeRegister_plain value ?_ ?_ ?_).trans (if_pos hd) <;> rcases h with rfl | rfl | rfl | rfl | rfl | rfl <;> decide

theorem writeRegister_ignored (h4 : offset ≠ 0x04) (h24 : offset ≠ 0x24) (h28 : offset ≠ 0x28)
    (h : s.port.dev ≠ .idle ∨ ¬queueRegister offset) : writeRegister offset .word value s = s := by
  rw [writeRegister_plain value h4 h24 h28]
  split
  · next hd => rw [writeQueueRegister_other value s.port (h.resolve_left (not_not.mpr hd))]
  · rfl

variable (s)

/-- A word write of CTRL is a soft reset or a run request by its RESET bit; in RESETTING neither does anything (R189, R190). -/
theorem writeRegister_ctrl : writeRegister 0x04 .word value s =
    if value.getLsbD 1 then softReset s else writeRun (value.getLsbD 0) s := by
  rw [writeRegister, if_pos rfl]
  split
  · next hd => rw [softReset_resetting hd, writeRun_ignored _ (.inr hd), ite_self]
  · rfl

end Write

/-- Settles O9: the queue registers by `readRegister_writeQueueRegister` and its counterpart at another offset, every other write by
`writeRegister_ignored`, and CTRL, POST and RLSE by the row that the write spells. -/
theorem registerWrites : Obligations.RegisterWrites := by
  have row : ∀ {offset value s t}, writeRegister offset .word value s = t → Completes (.registerWrite offset .word value) s t :=
    fun e => congrArg Host.Outcome.next e
  refine ⟨fun offset value s => ⟨fun hd hq => ?taken, fun h4 h24 h28 h => row (writeRegister_ignored value h4 h24 h28 h), rfl, rfl⟩,
    fun value s => ⟨?ctrl, rfl, rfl⟩⟩
  case taken =>
    exact ⟨_, row (writeRegister_queueRegister value hq hd), readRegister_writeQueueRegister value s hq,
      fun other hn => readRegister_writeQueueRegister_ne value s hn, rfl⟩
  case ctrl =>
    have hwrite : exec (.registerWrite 0x04 .word value) s = .next (writeRegister 0x04 .word value s) := rfl
    rw [hwrite, writeRegister_ctrl, apply_ite Host.Outcome.next]
    rfl

end Sys2Proof.Machine
end

section
/-!
CERTIFICATE. The state right after power-on meets every invariant (R181, R190).
-/

namespace Sys2Proof.Machine

/-- Power-on finds the reset state as it leaves it. -/
theorem powerOn_reset : powerOn State.reset = State.reset := rfl

/-- Settles O59: each invariant holds after a power-on of any state, and the reset state is one of these (`powerOn_reset`). -/
theorem resetMeetsInvariants : Obligations.ResetMeetsInvariants := by
  unfold Obligations.ResetMeetsInvariants
  rw [← powerOn_reset]
  obtain ⟨hlines, hlanes⟩ := wired_iff.mp (State.Wired.powerOn State.reset)
  obtain ⟨htimers, hlists, horders⟩ := tracksSound_iff.mp (State.tracksSound.powerOn State.reset)
  exact ⟨queuesSound_absent (rq_powerOn _), hlines, hlanes, htimers, hlists, horders, tripsHold_powerOn _,
    adminSound_atRest rfl rfl nofun nofun⟩

end Sys2Proof.Machine
end

section
/-!
CERTIFICATE. The bytes of an admin command and the command agree (R191, R194).
-/

namespace Sys2Proof.Machine

/-- Settles O25: the id by its two bytes (`id_encodeCommand`) and the parameters command by command (`decodeParams_encodeCommand`), put
together in `decodeCommand_encodeCommand`. -/
theorem decodeOfEncodedCommand : Obligations.DecodeOfEncodedCommand := fun _ _ h => decodeCommand_encodeCommand h

end Sys2Proof.Machine
end

section
/-!
CERTIFICATE. A step with a command waiting runs that command (00_scope.md, Events and time).
-/

namespace Sys2Proof.Machine

/-- Settles O1: a waiting command selects the branch of `step` that runs it, as an empty queue selects the tick (`emptyQueueTicks`). -/
theorem stepRunsFrontCommand : Obligations.StepRunsFrontCommand := by
  intro c rest s hfront
  rw [step, hfront]

end Sys2Proof.Machine
end
